-- ==== Sys2Proof/Word.lean ====
section
/-! DEFINITION. The word types of the block: the widths of 00_scope.md rule R5, each under the name of what it holds. -/

namespace Sys2Proof

/-- The 32-bit word of a host register access and of a command (R5 `REG_W`, R41, R60). -/
abbrev Word := BitVec 32

/-- A node index (R5 `PTR_W`, R12). -/
abbrev NodeIdx := BitVec 17

/-- A bucket count, LEN[k] or cnt[k] (R5 `CNT_W`). -/
abbrev Count := BitVec 17

/-- A pass number, `order` or a node's `visited` stamp (R5 `ORD_W`). -/
abbrev Pass := BitVec 17

/-- An opaque 8-bit symbol (R5 `SYM_W`). -/
abbrev Sym := BitVec 8

/-- The 80-bit node word (R5 `NODE_W`, R64). -/
abbrev NodeWord := BitVec 80

end Sys2Proof
end

