-- ==== Sys2Proof/Syntax.lean ====
section
/-! DEFINITION. The command set: one constructor for each row of spec/opcode_table.json. -/

namespace Sys2Proof

/-- The block's commands (30_encoding.md R61). The operands of BUILD are implicit (R63): the table registers as they stand. -/
inductive Instr where
  /-- `BUILD`: build the tree from the tables (R80). -/
  | build
  /-- `MOVE b`: follow one edge, left for `false`, right for `true` (R110, R63). -/
  | move (b : Bool)
  /-- `RESTART`: cursor to the root, decode error cleared (R117). -/
  | restart
  deriving DecidableEq, Repr

end Sys2Proof
end

