-- ==== Sys2Proof/WellFormed.lean ====
section
/-! DEFINITION. Well-formedness: the fields of format C (30_encoding.md rule R60) and the check of that rule's table. -/

namespace Sys2Proof

/-- The four fields of the one command format (R60). -/
structure CommandFields where
  /-- [31:8], must be 0 -/
  zeroHi : BitVec 24
  /-- [7:4], the operation -/
  op : BitVec 4
  /-- [3:1], must be 0 -/
  zeroLo : BitVec 3
  /-- [0], the bit of MOVE -/
  b : Bool
  deriving DecidableEq, Repr

/-- R60: both zero fields are 0, `op` is 1, 2 or 3, and `b` is 0 unless the operation is MOVE. -/
def CommandFields.wf (f : CommandFields) : Bool :=
  f.zeroHi == 0 && f.zeroLo == 0 && (f.op == 1 || f.op == 2 || f.op == 3) && (f.op == 2 || !f.b)

/-- The fields each command puts into the format (R60, R61). -/
def Instr.fields : Instr → CommandFields
  | .build => ⟨0, 1, 0, false⟩
  | .move b => ⟨0, 2, 0, b⟩
  | .restart => ⟨0, 3, 0, false⟩

/-- A command is well formed when its fields are. -/
def Instr.wf (i : Instr) : Bool := i.fields.wf

end Sys2Proof
end

