-- ==== Sys2Proof/Decode.lean ====
section
/-! DEFINITION. The command decoder (30_encoding.md rules R60 to R63), total on every 32-bit word and rejecting by name, and the encoder. -/

namespace Sys2Proof

/-- Why a word is reserved (R62): the first field of R60's table that is not as it must be. -/
inductive Reserved where
  /-- a bit of [31:8] is set -/
  | highBits
  /-- a bit of [3:1] is set -/
  | lowBits
  /-- `op` is 0 or 4 to 15 -/
  | operation
  /-- bit 0 is set in a BUILD or RESTART -/
  | operandBit
  deriving DecidableEq, Repr

/-- The fields of a word (R60). -/
def fieldsOf (w : Word) : CommandFields :=
  ⟨w.extractLsb' 8 24, w.extractLsb' 4 4, w.extractLsb' 1 3, w.getLsbD 0⟩

/-- The word of four fields (R60). -/
def wordOf (f : CommandFields) : Word :=
  (f.zeroHi ++ f.op ++ f.zeroLo ++ BitVec.ofBool f.b).setWidth 32

/-- The name under which a word that is no command is rejected (R62). -/
def reservedReason (w : Word) : Reserved :=
  if (fieldsOf w).zeroHi ≠ 0 then .highBits
  else if (fieldsOf w).zeroLo ≠ 0 then .lowBits
  else if (fieldsOf w).op = 0 ∨ (fieldsOf w).op ≥ 4 then .operation
  else .operandBit

/-- The command decoder as R61 writes it. -/
def decode (w : Word) : Except Reserved Instr :=
  if w = 0x00000010#32 then .ok .build
  else if w &&& 0xFFFFFFFE#32 = 0x00000020#32 then .ok (.move (w.getLsbD 0))
  else if w = 0x00000030#32 then .ok .restart
  else .error (reservedReason w)

/-- The decoder's answer without the reason of a rejection. -/
def decode? (w : Word) : Option Instr := (decode w).toOption

/-- The command word of an instruction, from the field table of R60. -/
def encode (i : Instr) : Word := wordOf i.fields

/-- The decoder on a word numbered as spec/opcode_table.json numbers it. A command is one whole 32-bit word (R44, R60), so no byte
order comes in; bits at `nbits` and above are 0, and a value that 32 bits cannot hold is no command. Log 11. -/
def decodeTableWord (nbits w : Nat) : Option Instr :=
  if w % 2 ^ nbits < 2 ^ 32 then decode? (BitVec.ofNat 32 (w % 2 ^ nbits)) else none

end Sys2Proof
end

