-- ==== Sys2Proof/Config.lean ====
section
/-! DEFINITION. What one implementation fixes (00_scope.md rule R5) and the FREE VALUES: constants with no body, so that nothing can be proved of what they are. -/

namespace Sys2Proof.Config

/-- `MAXLEN`: the longest code length, the number of buckets, the deepest node (R5, fixed by the document). -/
def maxLen : Nat := 16

/-- `NODE_CAP`: the number of words of the node memory (R5, D2). -/
def nodeCap : Nat := 131071

/-- `VAL_CAP`: the number of entries of VAL (R5, D5). -/
def valCap : Nat := 65536

/-- The size in bytes of the host register space (R40). -/
def regSpaceBytes : Nat := 524288

/-- `BASE` in units of the register space, so that it is a multiple of 2^19 (R5, U12, D28: the platform's choice, OPEN). Log 10. -/
opaque baseBlock : Nat

/-- FREE VALUE (U8, D27): what VAL[k] holds before anything has written it. Log 3. -/
opaque powerUpVal : Nat → Sym

/-- FREE VALUE (U1, R113): the cursor after the n-th InvalidCode. Log 4. -/
opaque lostCursor : Nat → NodeIdx

/-- FREE VALUE (U9, R25): the word of a node index that holds no allocated node. Log 5. -/
opaque staleWord : Nat → NodeWord

/-- FREE VALUE: the count of a bucket number above 15, which the block does not have (R17). Log 6. -/
opaque absentCount : Nat → Count

end Sys2Proof.Config
end

