-- ==== Sys2Proof/Machine/State.lean ====
section
/-! DEFINITION. The state of the block as plain data (10_state.md rules R11 to R26), the model's own fields beside it, and the state after reset. -/

namespace Sys2Proof.Machine

/-- One node (R12): optional pointers in place of a valid bit and an index, as R64 allows. -/
structure Node where
  left : Option NodeIdx
  right : Option NodeIdx
  parent : Option NodeIdx
  value : Sym
  used : Bool
  visited : Pass
  deriving DecidableEq, Repr

/-- `phase` (R11): whether a build is in progress. -/
inductive Phase where
  | idle
  | build
  deriving DecidableEq, Repr

/-- The three build errors (R130). -/
inductive BuildError where
  | tableTooLarge
  | tooFewValues
  | infeasible
  deriving DecidableEq, Repr

/-- The four errors of the block (R130, R135). -/
inductive Error where
  | build (e : BuildError)
  | invalidCode
  deriving DecidableEq, Repr

/-- The RESULT register (R21). -/
structure MoveResult where
  err : Bool
  sv : Bool
  sym : Sym
  deriving DecidableEq, Repr

/-- One event at the block's boundary. The order of these events is a parameter of a run (R11, R48, R170). Log 1. -/
inductive Turn where
  /-- the host reads `size` bytes at byte offset `off` from BASE (R41, R42) -/
  | read (off size : Nat)
  /-- the host writes `v` to `size` bytes at byte offset `off` from BASE (R41, R42) -/
  | write (off size : Nat) (v : Word)
  /-- the engine takes one step if a build is in progress (R10) -/
  | engine
  /-- the platform asserts the reset input (R160) -/
  | reset
  deriving DecidableEq, Repr

/-- Everything the spec gives the block (R11: "Nothing else is state"), then three fields of the model's own. -/
structure State where
  /-- N (R12): the nodes by index, indices strictly rising; an index not listed holds no allocated node (R25) -/
  nodes : List (Nat × Node)
  /-- R16 -/
  alloc : BitVec 17
  /-- R15 -/
  cursor : NodeIdx
  /-- R11; STATUS.BUSY is its read form (R20) -/
  phase : Phase
  /-- the bucket index (R17) -/
  i : BitVec 5
  /-- R17 -/
  depth : BitVec 5
  /-- the pass counter (R17) -/
  order : Pass
  /-- the number of values consumed (R17) -/
  vidx : BitVec 17
  /-- the working counts (R17) -/
  cnt : Vector Count 16
  /-- NLEN (R18) -/
  nlen : BitVec 8
  /-- LEN[0..15] (R18) -/
  len : Vector Count 16
  /-- NVAL (R18) -/
  nval : BitVec 17
  /-- VAL (R18): the entries written since power-up, by index, indices strictly rising -/
  vals : List Host.Cell
  /-- STATUS.DERR (R20) -/
  derr : Bool
  /-- STATUS.BERR (R20); `none` is code 0 -/
  berr : Option BuildError
  /-- STATUS.BUILT (R20) -/
  built : Bool
  /-- RESULT (R21) -/
  result : MoveResult
  /-- MODEL'S OWN, log 1: the events still to come, the next first -/
  turns : List Turn
  /-- MODEL'S OWN, log 2: the word the last host read returned -/
  rdata : Word
  /-- MODEL'S OWN, log 4: how many unspecified cursors have been drawn -/
  draws : Nat
  deriving DecidableEq, Repr

/-- Why the machine stops. -/
inductive Fault where
  /-- Raised by a host access at an offset of 2^19 or more, which the register space of R40 does not have. Safe: no effect is given to it. Log 9. -/
  | outsideRegisterSpace
  deriving DecidableEq, Repr

/-- What the model refuses to give a meaning. -/
inductive Refusal where
  /-- Raised by an arm of `exec` whose instruction has no meaning yet; no arm does. Safe. -/
  | notModelled (mnemonic : String)
  /-- Raised by a host access whose size is not 4 bytes (R42, U10: "a model refuses it"). Safe. Log 8. -/
  | accessNotWord
  /-- Raised by a host access whose offset is not a multiple of 4 (R42, U10). Safe. Log 8. -/
  | accessMisaligned
  deriving DecidableEq, Repr

/-- What a step answers. -/
abbrev Result := Host.Outcome State Fault Refusal

/-- The state right after reset at power-up (R26, R160): the bare root, every register 0, no VAL entry written (log 3), and no event
pending (log 1). -/
def State.reset : State where
  nodes := [(0, ⟨none, none, none, 0, false, 0⟩)]
  alloc := 1
  cursor := 0
  phase := .idle
  i := 0
  depth := 0
  order := 0
  vidx := 0
  cnt := Vector.replicate 16 0
  nlen := 0
  len := Vector.replicate 16 0
  nval := 0
  vals := []
  derr := false
  berr := none
  built := false
  result := ⟨false, false, 0⟩
  turns := []
  rdata := 0
  draws := 0

end Sys2Proof.Machine
end

