-- ==== Sys2Proof/Machine/NodeWord.lean ====
section
/-! DEFINITION. The 80-bit node word (30_encoding.md rule R64) and its two constants. -/

namespace Sys2Proof.Machine

/-- An optional pointer as {valid, index}; an absent pointer is written as 0 (R64). -/
def pointerBits (p : Option NodeIdx) : BitVec 18 :=
  match p with
  | none => 0
  | some k => 1#1 ++ k

/-- The pointer of {valid, index}; the index is ignored when the valid bit is 0 (R64). -/
def pointerOf (w : BitVec 18) : Option NodeIdx :=
  if w.getLsbD 17 then some (w.setWidth 17) else none

/-- The node word of R64: visited [79:63], used [62], value [61:54], parent [53:36], right [35:18], left [17:0]. -/
def nodeToWord (n : Node) : NodeWord :=
  (n.visited ++ BitVec.ofBool n.used ++ n.value ++ pointerBits n.parent ++ pointerBits n.right ++ pointerBits n.left).setWidth 80

/-- The node of a word, by the bit table of R64. -/
def nodeOfWord (w : NodeWord) : Node where
  left := pointerOf (w.extractLsb' 0 18)
  right := pointerOf (w.extractLsb' 18 18)
  parent := pointerOf (w.extractLsb' 36 18)
  value := w.extractLsb' 54 8
  used := w.getLsbD 62
  visited := w.extractLsb' 63 17

/-- `root_clear` (R14). -/
def rootClear : Node := ⟨none, none, none, 0, false, 0⟩

/-- `fresh(p)` (R96). -/
def fresh (p : NodeIdx) : Node := ⟨none, none, some p, 0, false, 0⟩

/-- `childless(k)` of R8, on the node word. -/
def childless (n : Node) : Bool := n.left.isNone && n.right.isNone

end Sys2Proof.Machine
end

