-- ==== Sys2Proof/Machine/Ops.lean ====
section
/-! DEFINITION. The shared operations: the sparse memories, the accessors of N, VAL and cnt, discarding a tree, raising an error and leaving one, reset. -/

namespace Sys2Proof.Machine

/-- The entry listed at an index. -/
def lookup {α : Type} : List (Nat × α) → Nat → Option α
  | [], _ => none
  | (a, x) :: r, k => if a = k then some x else lookup r k

/-- Writing the entry at an index, keeping the indices in rising order. -/
def store {α : Type} : List (Nat × α) → Nat → α → List (Nat × α)
  | [], k, x => [(k, x)]
  | (a, y) :: r, k, x =>
    if k < a then (k, x) :: (a, y) :: r
    else if a = k then (k, x) :: r
    else (a, y) :: store r k x

/-- The canonical form: indices strictly rising. What an unlisted index looks up as is "nothing", which no listed entry is. -/
def memoryWf {α : Type} : List (Nat × α) → Bool
  | [] => true
  | [_] => true
  | (a, _) :: (b, y) :: r => decide (a < b) && memoryWf ((b, y) :: r)

/-- `N[k]` (R8). An index that holds no allocated node is not state (R25): its word is a free value (U9). Log 5. -/
def nodeAt (s : State) (k : Nat) : Node := (lookup s.nodes k).getD (nodeOfWord (Config.staleWord k))

/-- `N[k] <- n`, the whole word (R8). -/
def setNode (s : State) (k : Nat) (n : Node) : State := { s with nodes := store s.nodes k n }

/-- The node under the cursor. -/
def here (s : State) : Node := nodeAt s s.cursor.toNat

/-- `VAL[k]` (R18). An entry nothing has written holds an unspecified byte: a free value (U8). Log 3. -/
def valAt (s : State) (k : Nat) : Sym := (lookup s.vals k).getD (Config.powerUpVal k)

/-- `VAL[k] <- v` (R18). -/
def setVal (s : State) (k : Nat) (v : Sym) : State := { s with vals := store s.vals k v }

/-- `cnt[k]` (R17). The block has no bucket above 15: there the count is a free value, and no run reads it (R97(a)). Log 6. -/
def cntAt (s : State) (k : Nat) : Count := (s.cnt[k]?).getD (Config.absentCount k)

/-- `discard()` (R102): the bare root, and every other node released at once. -/
def discard (s : State) : State := { s with nodes := [(0, rootClear)], alloc := 1, cursor := 0 }

/-- RESULT for "no symbol yet" (R21). -/
def noSymbol : MoveResult := ⟨false, false, 0⟩

/-- RESULT for a symbol (R21). -/
def symbolResult (v : Sym) : MoveResult := ⟨false, true, v⟩

/-- RESULT for InvalidCode (R21). -/
def invalidResult : MoveResult := ⟨true, false, 0⟩

/-- `raise E` (R138), the one way an error is signalled: its code is latched, its state change made, the command is over. Control goes
nowhere. The cursor after InvalidCode is a free value (R113, U1). Log 4. -/
def raise (e : Error) (s : State) : State :=
  match e with
  | .build .tableTooLarge => { s with berr := some .tableTooLarge, phase := .idle }
  | .build .tooFewValues => { discard s with berr := some .tooFewValues, phase := .idle }
  | .build .infeasible => { discard s with berr := some .infeasible, phase := .idle }
  | .invalidCode => { s with derr := true, result := invalidResult, cursor := Config.lostCursor s.draws, draws := s.draws + 1 }

/-- Leaving the decode error state (R140, R117): the cursor at the root, DERR and RESULT cleared. -/
def clearDecoder (s : State) : State := { s with cursor := 0, derr := false, result := noSymbol }

/-- The effect of the reset input (R160): every register, flag and the tree as after power-up; VAL is not changed. -/
def blockReset (s : State) : State :=
  { State.reset with vals := s.vals, turns := s.turns, rdata := s.rdata, draws := s.draws }

end Sys2Proof.Machine
end

