-- ==== Sys2Proof/Machine/Operands.lean ====
section
/-! DEFINITION. Operand forms: the edge a bit selects (R112), the implicit operands of BUILD (R63), and the register an offset names (R41). -/

namespace Sys2Proof.Machine

/-- The edge of a node that a bit selects: 0 left, 1 right (R63, R112). -/
def edge (n : Node) (b : Bool) : Option NodeIdx := if b then n.right else n.left

/-- The working counts a BUILD starts with: LEN[k] for k < NLEN, else 0 (R83, D25). -/
def loadedCounts (nlen : BitVec 8) (len : Vector Count 16) : Vector Count 16 :=
  Vector.ofFn fun k => if k.val < nlen.toNat then len[k] else 0

/-- The registers of the host register space (R41). -/
inductive Reg where
  | cmd
  | status
  | result
  | nlen
  | nval
  | len (k : Fin 16)
  | val (k : Nat)
  | unmapped
  deriving DecidableEq, Repr

/-- The register at an aligned byte offset (R41). -/
def regAt (off : Nat) : Reg :=
  if off = 0x00000 then .cmd
  else if off = 0x00004 then .status
  else if off = 0x00008 then .result
  else if off = 0x0000C then .nlen
  else if off = 0x00010 then .nval
  else if h : 0x00040 ≤ off ∧ off < 0x00080 then .len ⟨(off - 0x00040) / 4, by omega⟩
  else if 0x40000 ≤ off then .val ((off - 0x40000) / 4)
  else .unmapped

/-- `BASE` (R5, U12). Log 10. -/
def base : Nat := Config.baseBlock * Config.regSpaceBytes

/-- The offset of a platform address that falls on the block's register space; other addresses are not this block's (R40, R41). Log 10. -/
def offsetOfAddress (a : Nat) : Option Nat :=
  if base ≤ a ∧ a < base + Config.regSpaceBytes then some (a - base) else none

end Sys2Proof.Machine
end

