-- ==== Sys2Proof/Machine/Flags.lean ====
section
/-! DEFINITION. The flags as a host reads them: the STATUS word (R20), the RESULT word (R21), and STATUS.BUSY as the gate of every host write (R46). -/

namespace Sys2Proof.Machine

/-- STATUS.BUSY: 1 while `phase = BUILD` (R20). -/
def busy (s : State) : Bool := s.phase == .build

/-- The codes of the build errors (R130). -/
def berrCode : Option BuildError → BitVec 2
  | none => 0
  | some .tableTooLarge => 1
  | some .tooFewValues => 2
  | some .infeasible => 3

/-- The STATUS word (R20): BUILT [4], BERR [3:2], DERR [1], BUSY [0], [31:5] read 0. -/
def statusWord (s : State) : Word :=
  (BitVec.ofBool s.built ++ berrCode s.berr ++ BitVec.ofBool s.derr ++ BitVec.ofBool (busy s)).setWidth 32

/-- The RESULT word (R21): ERR [9], SV [8], SYM [7:0], [31:10] read 0. -/
def resultWord (r : MoveResult) : Word := (BitVec.ofBool r.err ++ BitVec.ofBool r.sv ++ r.sym).setWidth 32

end Sys2Proof.Machine
end

