-- ==== Sys2Proof/Machine/Bus.lean ====
section
/-! DEFINITION. Host accesses (20_memory.md rules R40 to R47): reading and writing the register map, which accesses exist, and the command a write carries. -/

namespace Sys2Proof.Machine

/-- What a host read returns (R18 to R21, R41, R43): bits above a register's width, CMD and unmapped offsets read 0. -/
def readReg (s : State) (r : Reg) : Word :=
  match r with
  | .cmd => 0
  | .status => statusWord s
  | .result => resultWord s.result
  | .nlen => s.nlen.setWidth 32
  | .nval => s.nval.setWidth 32
  | .len k => (s.len[k]).setWidth 32
  | .val k => (valAt s k).setWidth 32
  | .unmapped => 0

/-- A host write to a register other than CMD, the block being idle (R18, R43): the value is cut to the register's width; writes to
read-only registers and unmapped offsets change nothing. -/
def writeReg (s : State) (r : Reg) (v : Word) : State :=
  match r with
  | .cmd => s
  | .status => s
  | .result => s
  | .nlen => { s with nlen := v.setWidth 8 }
  | .nval => { s with nval := v.setWidth 17 }
  | .len k => { s with len := s.len.set k (v.setWidth 17) }
  | .val k => setVal s k (v.setWidth 8)
  | .unmapped => s

/-- A host read (R41, R47): no side effect; the word goes to the bus. Log 2. -/
def hostRead (off : Nat) (s : State) : State := { s with rdata := readReg s (regAt off) }

/-- A host write that carries no command: ignored while BUSY (R46); a reserved word written to CMD changes nothing (R62). -/
def hostWrite (off : Nat) (v : Word) (s : State) : State :=
  if busy s then s else writeReg s (regAt off) v

/-- The command a host write carries: the decoded word of a write to CMD (R19, R60, R61). -/
def commandOf (off : Nat) (v : Word) : Option Instr := if regAt off = .cmd then decode? v else none

/-- Which accesses exist (R40, R42): aligned 32-bit words inside the register space. Anything else stops. Log 8, log 9. -/
def checkedAccess (off size : Nat) (r : Result) : Result :=
  if size ≠ 4 then .refused .accessNotWord
  else if off % 4 ≠ 0 then .refused .accessMisaligned
  else if Config.regSpaceBytes ≤ off then .fault .outsideRegisterSpace
  else r

end Sys2Proof.Machine
end

