-- ==== Sys2Proof/Machine/Build.lean ====
section
/-! DEFINITION. The BUILD command (40_build.md rules R80 to R83): its start step. The walk it sets going is Machine/Engine.lean. -/

namespace Sys2Proof.Machine

/-- The walk initialisation (R83). -/
def walkInit (s : State) : State :=
  { s with cnt := loadedCounts s.nlen s.len, i := 0, depth := 0, order := 1, vidx := 0, phase := .build }

/-- The discard and the clearing of every outcome flag that BUILD start begins with (R81). -/
def buildClear (s : State) : State :=
  { discard s with derr := false, berr := none, built := false, result := noSymbol }

/-- BUILD start (R81): the tree is discarded and the flags cleared first, then the table size is checked (R82). -/
def buildStart (s : State) : State :=
  if Config.maxLen < s.nlen.toNat then raise (.build .tableTooLarge) (buildClear s)
  else walkInit (buildClear s)

/-- `BUILD` (R80): accepted only while IDLE; while BUSY the write is ignored (R46). -/
def execBuild (s : State) : Result :=
  if busy s then .next s else .next (buildStart s)

end Sys2Proof.Machine
end

