-- ==== Sys2Proof/Machine/Decoder.lean ====
section
/-! DEFINITION. The decode family (41_decode.md): MOVE (R110 to R115) and RESTART (R117). -/

namespace Sys2Proof.Machine

/-- MOVE while DERR = 1 (R111): RESULT says InvalidCode, nothing else changes, the cursor is not read. -/
def moveRefused (s : State) : State := { s with result := invalidResult }

/-- MOVE onto an internal child (R114). -/
def moveAdvance (s : State) (k : NodeIdx) : State := { s with cursor := k, result := noSymbol }

/-- MOVE onto a leaf (R115): its value is the symbol, the cursor goes back to the root. -/
def moveEmit (s : State) (k : NodeIdx) : State :=
  { s with cursor := 0, result := symbolResult (nodeAt s k.toNat).value }

/-- The four cases of MOVE in the order of R110. -/
def moveStep (b : Bool) (s : State) : State :=
  if s.derr then moveRefused s
  else
    match edge (here s) b with
    | none => raise .invalidCode s
    | some k => if childless (nodeAt s k.toNat) then moveEmit s k else moveAdvance s k

/-- `MOVE b` (R110): accepted only while IDLE; while BUSY the write is ignored (R46). -/
def execMove (b : Bool) (s : State) : Result :=
  if busy s then .next s else .next (moveStep b s)

/-- `RESTART` (R117): accepted only while IDLE; while BUSY the write is ignored (R46). -/
def execRestart (s : State) : Result :=
  if busy s then .next s else .next (clearDecoder s)

end Sys2Proof.Machine
end

