-- ==== Sys2Proof/Machine/Dispatch.lean ====
section
/-! DEFINITION. One arm per command. -/

namespace Sys2Proof.Machine

def exec (i : Instr) (s : State) : Host.Outcome State Fault Refusal :=
  match i with
  | .build => Sys2Proof.Machine.execBuild s
  | .move b => Sys2Proof.Machine.execMove b s
  | .restart => Sys2Proof.Machine.execRestart s

end Sys2Proof.Machine
end

