-- ==== Sys2Proof/Machine/Engine.lean ====
section
/-! DEFINITION. The build engine (40_build.md rules R84 to R96): the dispatch table and its ten steps. -/

namespace Sys2Proof.Machine

/-- The ten steps of the dispatch table (R84). -/
inductive EngineStep where
  | finish
  | skip
  | place
  | failTooFewValues
  | dlNew
  | dlOld
  | drNew
  | drOld
  | ascend
  | failInfeasible
  deriving DecidableEq, Repr

/-- Tests 6 and 8 of R84: a child the walk may enter, not used and not explored in this pass. -/
def enterable (s : State) (k : NodeIdx) : Bool :=
  !(nodeAt s k.toNat).used && (nodeAt s k.toNat).visited != s.order

/-- The dispatch table (R84): the first test that holds, in this order. -/
def engineChoice (s : State) : EngineStep :=
  if s.i.toNat = s.nlen.toNat then .finish
  else if cntAt s s.i.toNat = 0 then .skip
  else if s.depth.toNat = s.i.toNat + 1 then
    if s.vidx.toNat < s.nval.toNat then .place else .failTooFewValues
  else
    match (here s).left with
    | none => .dlNew
    | some l =>
      if enterable s l then .dlOld
      else
        match (here s).right with
        | none => .drNew
        | some r =>
          if enterable s r then .drOld
          else
            match (here s).parent with
            | some _ => .ascend
            | none => .failInfeasible

/-- FINISH (R85). -/
def stepFinish (s : State) : State := { s with built := true, phase := .idle }

/-- SKIP (R86). -/
def stepSkip (s : State) : State := { s with i := s.i + 1 }

/-- PLACE (R87). -/
def stepPlace (s : State) : State :=
  { setNode s s.cursor.toNat { here s with value := valAt s s.vidx.toNat, used := true } with
    vidx := s.vidx + 1, cursor := 0, depth := 0,
    cnt := s.cnt.setIfInBounds s.i.toNat (cntAt s s.i.toNat - 1), order := s.order + 1 }

/-- The part DL_NEW and DR_NEW share (R89, R91): the new node at index `alloc`, then the pointer to it in the node under the cursor,
and the descent into it. -/
def createChild (s : State) (withPointer : Node) : State :=
  { setNode (setNode s s.alloc.toNat (fresh s.cursor)) s.cursor.toNat withPointer with
    alloc := s.alloc + 1, cursor := s.alloc, depth := s.depth + 1 }

/-- DL_NEW (R89). -/
def stepDlNew (s : State) : State := createChild s { here s with left := some s.alloc }

/-- DR_NEW (R91). -/
def stepDrNew (s : State) : State := createChild s { here s with right := some s.alloc }

/-- The descent into an existing child (R90, R92). -/
def descend (s : State) (k : NodeIdx) : State := { s with cursor := k, depth := s.depth + 1 }

/-- DL_OLD (R90): taken only when the left child is present. -/
def stepDlOld (s : State) : State :=
  match (here s).left with
  | some l => descend s l
  | none => s

/-- DR_OLD (R92): taken only when the right child is present. -/
def stepDrOld (s : State) : State :=
  match (here s).right with
  | some r => descend s r
  | none => s

/-- ASCEND (R93): taken only when the parent is present. -/
def stepAscend (s : State) : State :=
  match (here s).parent with
  | some p =>
    { setNode s s.cursor.toNat { here s with visited := s.order } with cursor := p, depth := s.depth - 1 }
  | none => s

/-- The effect of a step (R85 to R94). -/
def engineEffect (e : EngineStep) (s : State) : State :=
  match e with
  | .finish => stepFinish s
  | .skip => stepSkip s
  | .place => stepPlace s
  | .failTooFewValues => raise (.build .tooFewValues) s
  | .dlNew => stepDlNew s
  | .dlOld => stepDlOld s
  | .drNew => stepDrNew s
  | .drOld => stepDrOld s
  | .ascend => stepAscend s
  | .failInfeasible => raise (.build .infeasible) s

/-- The engine's turn (R10): one step while `phase = BUILD`, nothing while `phase = IDLE`. -/
def engineTurn (s : State) : State := if busy s then engineEffect (engineChoice s) s else s

/-- `n` turns of the engine with no host access between them (R84, R98). -/
def engineTurns : Nat → State → State
  | 0, s => s
  | n + 1, s => engineTurns n (engineTurn s)

end Sys2Proof.Machine
end

