-- ==== Sys2Proof/Machine/Step.lean ====
section
/-! DEFINITION. One step of the block: the next event of `turns`, or, when none is left, the engine's turn. -/

namespace Sys2Proof.Machine

/-- The effect of a host write (R45): a command if the write carries one, else a register write. -/
def writeAccess (off : Nat) (v : Word) (s : State) : Result :=
  match commandOf off v with
  | some i => exec i s
  | none => .next (hostWrite off v s)

/-- One step (R6): one host access, one engine step, or a reset. With no event left the engine goes on (R170: it "does not stop while
`phase = BUILD`"), and an idle block stays as it is. Log 1, log 14. -/
def step (s : State) : Host.Outcome State Fault Refusal :=
  match s.turns with
  | [] => .next (engineTurn s)
  | .engine :: ts => .next (engineTurn { s with turns := ts })
  | .reset :: ts => .next (blockReset { s with turns := ts })
  | .read off size :: ts => checkedAccess off size (.next (hostRead off { s with turns := ts }))
  | .write off size v :: ts => checkedAccess off size (writeAccess off v { s with turns := ts })

/-- The next event is the write of the command word to CMD (R6, R60): the block fetches nothing, a command runs when the host writes
it. Log 1. -/
def State.withFetchWord (s : State) (nbits w : Nat) : State :=
  { s with turns := .write 0x00000 4 (BitVec.ofNat 32 (w % 2 ^ nbits)) :: s.turns }

end Sys2Proof.Machine
end

