-- ==== Sys2Proof/Safety.lean ====
section
/-! DEFINITION. What claims about runs are stated in: the invariants of 10_state.md R13 and 40_build.md R97, the closed forms of 30_encoding.md R68 and 40_build.md R99, and feeding bits. -/

namespace Sys2Proof.Machine

/-- The block's own state (R11), the model's own fields set aside. -/
def blockOf (s : State) : State := { s with turns := [], rdata := 0, draws := 0 }

/-- A host access the interface can express (R40, R42). -/
def legalAccess (off size : Nat) : Bool := size == 4 && off % 4 == 0 && decide (off < 524288)

/-- A turn that is no host access, or a host access the interface can express. -/
def Turn.legal : Turn → Bool
  | .read off size => legalAccess off size
  | .write off size _ => legalAccess off size
  | .engine => true
  | .reset => true

/-! ## The tree -/

/-- The number of edges from a node up to the root, looking at no more than `fuel` nodes. -/
def climb (s : State) : Nat → Nat → Option Nat
  | 0, _ => none
  | fuel + 1, k =>
    match (nodeAt s k).parent with
    | none => some 0
    | some p => (climb s fuel p.toNat).map (· + 1)

/-- The depth of a node when it is at most 16 (R13(f)). -/
def depthOf (s : State) (k : Nat) : Option Nat := climb s 17 k

/-- The sum of a quantity over the allocated nodes. -/
def overNodes (s : State) (f : Nat → Nat) : Nat := ((List.range s.alloc.toNat).map f).sum

/-- The number of 16-bit code words a node still stands for: all below a childless node, the right half below a node with a left child
only. -/
def openWords (s : State) (k : Nat) : Nat :=
  if childless (nodeAt s k) then 2 ^ (16 - (depthOf s k).getD 0)
  else if (nodeAt s k).right.isNone then 2 ^ (15 - (depthOf s k).getD 0)
  else 0

/-- The number of children of a node. -/
def childCount (s : State) (k : Nat) : Nat := (nodeAt s k).left.isSome.toNat + (nodeAt s k).right.isSome.toNat

/-- The number of used nodes. -/
def usedCount (s : State) : Nat := overNodes s fun k => (nodeAt s k).used.toNat

/-- A present child pointer of node `k` leads to an allocated, later node whose parent is `k` (R13(c), R13(e)). -/
def childOk (s : State) (k : Nat) (c : Option NodeIdx) : Bool :=
  match c with
  | none => true
  | some x => decide (k < x.toNat) && decide (x.toNat < s.alloc.toNat) && (nodeAt s x.toNat).parent == some (BitVec.ofNat 17 k)

/-- The parent pointer `p` of a non-root node `k` leads to an allocated node that has `k` as a child (R13(c)). -/
def parentOk (s : State) (k : Nat) (p : Option NodeIdx) : Bool :=
  match p with
  | none => false
  | some x =>
    decide (x.toNat < s.alloc.toNat) &&
      ((nodeAt s x.toNat).left == some (BitVec.ofNat 17 k) || (nodeAt s x.toNat).right == some (BitVec.ofNat 17 k))

/-- The node memory and VAL are in canonical form, and the nodes listed are exactly `N[0..alloc-1]` (R16). -/
abbrev MemoryOk (s : State) : Prop :=
  memoryWf s.nodes = true ∧ memoryWf s.vals = true ∧ (∀ c ∈ s.vals, c.1 < 65536) ∧
    s.nodes.map Prod.fst = List.range s.alloc.toNat

/-- A right child stands only beside a left one, and is another node (R89, R13(c)). -/
def siblingsOk (n : Node) : Bool := n.right.isNone || (n.left.isSome && n.left != n.right)

/-- One node (R13(a), (c), (e), (f)). -/
def nodeOk (s : State) (k : Nat) : Bool :=
  childOk s k (nodeAt s k).left && childOk s k (nodeAt s k).right && siblingsOk (nodeAt s k) &&
    (!(nodeAt s k).used || childless (nodeAt s k)) && (k == 0 || parentOk s k (nodeAt s k).parent) && (depthOf s k).isSome

/-- The allocated nodes form a tree of depth at most 16 under node 0 (R13, R14), and no capacity is lost: the code words its open slots
and leaves stand for add up to all 2^16 of them, and every node but the root is a child (R16, R53). -/
abbrev TreeOk (s : State) : Prop :=
  (nodeAt s 0).parent = none ∧ (nodeAt s 0).used = false ∧ (∀ k, k < s.alloc.toNat → nodeOk s k = true) ∧
    overNodes s (openWords s) = 65536 ∧ s.alloc.toNat = overNodes s (childCount s) + 1

/-! ## The flags and the phases -/

/-- RESULT and the flags agree (R21: SV and ERR are never both 1, SYM is 0 without SV; DERR stands with ERR; BUILT only without an
error), and a block that is idle and not built holds the bare root (R121). -/
abbrev FlagsOk (s : State) : Prop :=
  s.derr = s.result.err ∧ ¬(s.result.err = true ∧ s.result.sv = true) ∧ (s.result.sv = false → s.result.sym = 0) ∧
    (s.built = true → s.berr = none) ∧
    (s.phase = .idle → s.built = false → s.nodes = [(0, rootClear)] ∧ s.alloc = 1)

/-- One node during a build (R97(e), (f)): an internal node is no deeper than the bucket index, a childless one is the root, used, or the
end of the chain being made, and no stamp is ahead of the pass. -/
def buildNodeOk (s : State) (k : Nat) : Bool :=
  (childless (nodeAt s k) || decide ((depthOf s k).getD 0 ≤ s.i.toNat)) &&
    (k == 0 || !childless (nodeAt s k) || (nodeAt s k).used || k == s.cursor.toNat) &&
    decide ((nodeAt s k).visited.toNat ≤ s.order.toNat)

/-- One node of a finished tree: a childless one is the root or used (R13(g)). -/
def idleNodeOk (s : State) (k : Nat) : Bool := k == 0 || !childless (nodeAt s k) || (nodeAt s k).used

/-- The walk while a build is in progress (R97), and the flags as BUILD start left them (R46). -/
abbrev BuildOk (s : State) : Prop :=
  s.i.toNat ≤ s.nlen.toNat ∧ s.nlen.toNat ≤ 16 ∧ (s.i.toNat < s.nlen.toNat → s.depth.toNat ≤ s.i.toNat + 1) ∧
    (s.i.toNat = s.nlen.toNat ∨ cntAt s s.i.toNat = 0 → s.depth = 0 ∧ s.cursor = 0) ∧
    s.cursor.toNat < s.alloc.toNat ∧ depthOf s s.cursor.toNat = some s.depth.toNat ∧ (here s).used = false ∧
    s.order.toNat = s.vidx.toNat + 1 ∧ s.vidx.toNat = usedCount s ∧
    (∀ k, k < s.alloc.toNat → buildNodeOk s k = true) ∧ (∀ k : Fin 16, s.cnt[k].toNat ≤ s.len[k].toNat) ∧
    s.derr = false ∧ s.berr = none ∧ s.built = false ∧ s.result = noSymbol

/-- The finished tree and the decoder's cursor while idle (R13(g), R15, R118). -/
abbrev IdleOk (s : State) : Prop :=
  (∀ k, k < s.alloc.toNat → idleNodeOk s k = true) ∧
    (s.derr = false → s.cursor.toNat < s.alloc.toNat ∧ (s.cursor = 0 ∨ childless (here s) = false))

/-- The invariant of the machine: every step keeps it. -/
abbrev Inv (s : State) : Prop :=
  MemoryOk s ∧ TreeOk s ∧ FlagsOk s ∧ (s.phase = .build → BuildOk s) ∧ (s.phase = .idle → IdleOk s)

/-! ## Closed forms -/

/-- The length sequence of a table (R68): LEN[0] ones, then LEN[1] twos, and so on over the buckets 0..NLEN-1. -/
def lengthSequence (s : State) : List Nat :=
  (List.range s.nlen.toNat).flatMap fun k => List.replicate ((s.len[k]?).getD 0).toNat (k + 1)

/-- The codes after one of length `l` and number `c` (R68): `c' = (c + 1) * 2^(l' - l)`. -/
def codesAfter (l c : Nat) : List Nat → List (Nat × Nat)
  | [] => []
  | m :: r => (m, (c + 1) * 2 ^ (m - l)) :: codesAfter m ((c + 1) * 2 ^ (m - l)) r

/-- The canonical codes, each a length and a number (R68). -/
def canonicalCodes : List Nat → List (Nat × Nat)
  | [] => []
  | l :: r => (l, 0) :: codesAfter l 0 r

/-- A code as bits, most significant first (R66, R68). -/
def codeBits (c : Nat × Nat) : List Bool := (List.range c.1).map fun m => c.2.testBit (c.1 - 1 - m)

/-- The index of the first code that does not fit (R99): the least j whose Kraft sum, in units of 2^-16, is above 1. -/
def firstMisfit (placed j : Nat) : List Nat → Option Nat
  | [] => none
  | l :: r => if 65536 < placed + 2 ^ (16 - l) then some j else firstMisfit (placed + 2 ^ (16 - l)) (j + 1) r

/-- The outcome of a BUILD as a function of the tables (R99). -/
def buildOutcome (s : State) : Option BuildError :=
  if 16 < s.nlen.toNat then some .tableTooLarge
  else if (firstMisfit 0 0 (lengthSequence s)).any fun f => decide (f ≤ s.nval.toNat) then some .infeasible
  else if s.nval.toNat < (lengthSequence s).length then some .tooFewValues
  else none

/-- The RESULT after each of a row of MOVE commands, and the state after the last. -/
def afterMoves : List Bool → State → List MoveResult × State
  | [], s => ([], s)
  | b :: r, s =>
    match exec (.move b) s with
    | .next t => (t.result :: (afterMoves r t).1, (afterMoves r t).2)
    | .fault _ => ([], s)
    | .refused _ => ([], s)

/-- The state one BUILD command and then `n` engine turns lead to (R80, R98). -/
def afterBuild (s : State) (n : Nat) : State := engineTurns n (buildStart s)

end Sys2Proof.Machine
end

