-- ==== Sys2Proof/Certificates/Slice0/Obligations.lean ====
section
/-! DEFINITION. The statements for the provers, each citing the rule of spec/ it formalises. -/

open Sys2Proof Sys2Proof.Machine

/-! ## Encodings -/

/-- R61's four command words, and reserved words of R62 and of 95_test_vectors.md 2.8, as the decoder reads them. -/
def Obligations.TabledWordsDecode : Prop :=
  decode? 0b00000000000000000000000000010000#32 = some .build ∧
    decode? 0b00000000000000000000000000100000#32 = some (.move false) ∧
    decode? 0b00000000000000000000000000100001#32 = some (.move true) ∧
    decode? 0b00000000000000000000000000110000#32 = some .restart ∧
    decode? 0x00000000#32 = none ∧ decode? 0x00000011#32 = none ∧ decode? 0x00000031#32 = none ∧
    decode? 0x00000022#32 = none ∧ decode? 0x00000121#32 = none

/-- R61: exactly four 32-bit values are commands, each standing for its own, and a command is accepted only while IDLE. -/
def Obligations.CommandsAreExactlyFourWords : Prop :=
  (∀ (w : Word) (i : Instr), decode? w = some i ↔
    (i = .build ∧ w = 0x00000010#32) ∨ (i = .move false ∧ w = 0x00000020#32) ∨
      (i = .move true ∧ w = 0x00000021#32) ∨ (i = .restart ∧ w = 0x00000030#32)) ∧
  ∀ (i : Instr) (s : State), s.phase = .build → exec i s = .next s

/-- R60, R61: decoding an encoded command gives it back, as a word and as a row of the opcode table, and a word that decodes is the
encoding of what it decodes to. -/
def Obligations.DecodeAndEncodeAgree : Prop :=
  (∀ i : Instr, i.wf = true → decode? (encode i) = some i ∧ decodeTableWord 32 (encode i).toNat = some i) ∧
    ∀ (w : Word) (i : Instr), decode? w = some i → encode i = w

/-- R60, R62: a word is a command exactly when its fields obey the format's table, and the fields lose no bit of the word. -/
def Obligations.FormatDecidesDecoding : Prop :=
  ∀ w : Word, (decode? w).isSome = (fieldsOf w).wf ∧ wordOf (fieldsOf w) = w

/-- R64: the bit positions of the node word, its two constants, that the word carries the whole node, and that a pointer whose valid bit is
0 is read as absent whatever its index bits are. -/
def Obligations.NodeWordLayout : Prop :=
  (∀ n : Node,
    (nodeToWord n).extractLsb' 0 17 = n.left.getD 0 ∧ (nodeToWord n).getLsbD 17 = n.left.isSome ∧
    (nodeToWord n).extractLsb' 18 17 = n.right.getD 0 ∧ (nodeToWord n).getLsbD 35 = n.right.isSome ∧
    (nodeToWord n).extractLsb' 36 17 = n.parent.getD 0 ∧ (nodeToWord n).getLsbD 53 = n.parent.isSome ∧
    (nodeToWord n).extractLsb' 54 8 = n.value ∧ (nodeToWord n).getLsbD 62 = n.used ∧
    (nodeToWord n).extractLsb' 63 17 = n.visited ∧ nodeOfWord (nodeToWord n) = n) ∧
  nodeToWord rootClear = 0 ∧
  (∀ p : NodeIdx, nodeToWord (fresh p) = (1#80 <<< 53) ||| (p.setWidth 80 <<< 36)) ∧
  ∀ w : NodeWord, (w.getLsbD 17 = false → (nodeOfWord w).left = none) ∧ (w.getLsbD 35 = false → (nodeOfWord w).right = none) ∧
    (w.getLsbD 53 = false → (nodeOfWord w).parent = none)

/-! ## Steps and host accesses -/

/-- R6, R45: a host write of a command word to CMD runs that command, and a word placed by `withFetchWord` is that write. -/
def Obligations.StepRunsTheDecodedCommand : Prop :=
  ∀ (s : State) (w : Word) (i : Instr), decode? w = some i →
    (∀ ts, s.turns = .write 0x00000 4 w :: ts → step s = exec i { s with turns := ts }) ∧
      step (s.withFetchWord 32 w.toNat) = exec i s

/-- R62: every word but the four commands is reserved; written to CMD it performs no operation and changes no state. -/
def Obligations.ReservedWordChangesNothing : Prop :=
  ∀ (s : State) (w : Word) (ts : List Turn), w ≠ 0x00000010#32 → w ≠ 0x00000020#32 → w ≠ 0x00000021#32 → w ≠ 0x00000030#32 →
    s.turns = .write 0x00000 4 w :: ts → step s = .next { s with turns := ts }

/-- R46: while a build runs every host write is ignored and reads are served without side effect: the table registers read as their
contents, and, in a state that meets the invariant, STATUS reads BUSY alone and RESULT reads 0. -/
def Obligations.BusyBlockIgnoresWritesAndServesReads : Prop :=
  ∀ (s : State) (ts : List Turn) (off : Nat), s.phase = .build → legalAccess off 4 = true →
    (∀ v, s.turns = .write off 4 v :: ts → step s = .next { s with turns := ts }) ∧
    (s.turns = .read off 4 :: ts → step s = .next { s with turns := ts, rdata := readReg s (regAt off) }) ∧
    (readReg s .nlen).toNat = s.nlen.toNat ∧ (readReg s .nval).toNat = s.nval.toNat ∧
    (∀ k : Fin 16, (readReg s (.len k)).toNat = s.len[k].toNat) ∧ (∀ k, (readReg s (.val k)).toNat = (valAt s k).toNat) ∧
    (Inv s → readReg s .status = 1 ∧ readReg s .result = 0)

/-- R41: the register at every aligned offset of the register space. -/
def Obligations.RegisterMap : Prop :=
  regAt 0x00000 = .cmd ∧ regAt 0x00004 = .status ∧ regAt 0x00008 = .result ∧ regAt 0x0000C = .nlen ∧ regAt 0x00010 = .nval ∧
    (∀ k : Fin 16, regAt (0x00040 + 4 * k.val) = .len k) ∧
    (∀ k, k < 65536 → regAt (0x40000 + 4 * k) = .val k) ∧
    ∀ off, off % 4 = 0 → 0x00010 < off → off < 0x00040 ∨ (0x00080 ≤ off ∧ off < 0x40000) → regAt off = .unmapped

/-- R20, R21, R130: the bits of the STATUS and RESULT words a host reads. -/
def Obligations.StatusAndResultBits : Prop :=
  ∀ s : State,
    ((readReg s .status).getLsbD 0 = true ↔ s.phase = .build) ∧ (readReg s .status).getLsbD 1 = s.derr ∧
    (readReg s .status).extractLsb' 2 2 =
      (match s.berr with
        | none => 0
        | some .tableTooLarge => 1
        | some .tooFewValues => 2
        | some .infeasible => 3) ∧
    (readReg s .status).getLsbD 4 = s.built ∧ (readReg s .status).extractLsb' 5 27 = 0 ∧
    (readReg s .result).extractLsb' 0 8 = s.result.sym ∧ (readReg s .result).getLsbD 8 = s.result.sv ∧
    (readReg s .result).getLsbD 9 = s.result.err ∧ (readReg s .result).extractLsb' 10 22 = 0

/-- R18, R47: on an idle block a write to a table register stores the low bits of the word there and changes nothing else, and the
register then reads back as those bits. -/
def Obligations.TableWritesStoreAndReadBack : Prop :=
  ∀ (s : State) (v : Word) (ts : List Turn), s.phase = .idle →
    (s.turns = .write 0x0000C 4 v :: ts → ∃ t, step s = .next t ∧ t = { s with turns := ts, nlen := t.nlen } ∧
      readReg t .nlen = v &&& 0x000000FF#32) ∧
    (s.turns = .write 0x00010 4 v :: ts → ∃ t, step s = .next t ∧ t = { s with turns := ts, nval := t.nval } ∧
      readReg t .nval = v &&& 0x0001FFFF#32) ∧
    (∀ k : Fin 16, s.turns = .write (0x00040 + 4 * k.val) 4 v :: ts → ∃ t, step s = .next t ∧
      t = { s with turns := ts, len := t.len } ∧ readReg t (.len k) = v &&& 0x0001FFFF#32 ∧
      ∀ j : Fin 16, j ≠ k → readReg t (.len j) = readReg s (.len j)) ∧
    (∀ k, k < 65536 → s.turns = .write (0x40000 + 4 * k) 4 v :: ts → ∃ t, step s = .next t ∧
      t = { s with turns := ts, vals := t.vals } ∧ readReg t (.val k) = v &&& 0x000000FF#32 ∧
      ∀ j, j ≠ k → valAt t j = valAt s j)

/-- R43: reads of CMD, of unmapped offsets and of reserved bits return 0; writes to read-only registers, to unmapped offsets and to
reserved bits change nothing; no access raises an error. Every legal read, whatever the phase, returns the word of the register at its
offset and changes nothing in the block (R47; that the word goes to `rdata` is log 2). -/
def Obligations.OddAccessesAreHarmless : Prop :=
  (∀ s : State, readReg s .cmd = 0 ∧ readReg s .unmapped = 0 ∧ readReg s .status >>> 5 = 0 ∧ readReg s .result >>> 10 = 0 ∧
    readReg s .nlen >>> 8 = 0 ∧ readReg s .nval >>> 17 = 0 ∧ (∀ k, readReg s (.len k) >>> 17 = 0) ∧
    ∀ k, readReg s (.val k) >>> 8 = 0) ∧
  (∀ (s : State) (off : Nat) (v : Word) (ts : List Turn), legalAccess off 4 = true → s.turns = .write off 4 v :: ts →
    (regAt off = .status ∨ regAt off = .result ∨ regAt off = .unmapped → step s = .next { s with turns := ts }) ∧
    (regAt off ≠ .cmd → ∃ t, step s = .next t ∧ t.derr = s.derr ∧ t.berr = s.berr ∧ t.result = s.result) ∧
    ∀ v' : Word, (regAt off = .nlen ∧ v &&& 0xFF#32 = v' &&& 0xFF#32) ∨ ((∃ k, regAt off = .val k) ∧ v &&& 0xFF#32 = v' &&& 0xFF#32) ∨
        (regAt off = .nval ∧ v &&& 0x1FFFF#32 = v' &&& 0x1FFFF#32) ∨
        ((∃ k, regAt off = .len k) ∧ v &&& 0x1FFFF#32 = v' &&& 0x1FFFF#32) →
      step s = step { s with turns := .write off 4 v' :: ts }) ∧
  ∀ (s : State) (off : Nat) (ts : List Turn), legalAccess off 4 = true → s.turns = .read off 4 :: ts →
    step s = .next { s with turns := ts, rdata := readReg s (regAt off) }

/-- R42, R40: an access that is not an aligned 32-bit word is refused by name, and one beyond the register space faults. The model's choice:
under which name an access that is both short and misaligned is refused (size first, then alignment) and that both are looked at before
BUSY (log 8); that an access beyond the space is a fault (log 9). -/
def Obligations.AccessesThatDoNotExistStop : Prop :=
  ∀ (s : State) (off size : Nat) (ts : List Turn),
    (s.turns = .read off size :: ts ∨ ∃ v, s.turns = .write off size v :: ts) →
    (size ≠ 4 → step s = .refused .accessNotWord) ∧
    (size = 4 → off % 4 ≠ 0 → step s = .refused .accessMisaligned) ∧
    (size = 4 → off % 4 = 0 → 524288 ≤ off → step s = .fault .outsideRegisterSpace)

/-- R10: an idle block does nothing on the engine's turn; with no event left it stays as it is (log 14). -/
def Obligations.IdleBlockStaysAsItIs : Prop :=
  ∀ s : State, s.phase = .idle →
    (s.turns = [] → step s = .next s) ∧ ∀ ts, s.turns = .engine :: ts → step s = .next { s with turns := ts }

/-- R5, R40, R41: BASE is a multiple of 2^19. The model's choice (log 10): the conversion of a platform address into the offset an access
carries, which is defined at BASE + off for exactly the offsets of the register space. -/
def Obligations.PlatformAddressesOfTheBlock : Prop :=
  base % 2 ^ 19 = 0 ∧ ∀ a off, offsetOfAddress a = some off ↔ a = base + off ∧ off < 2 ^ 19

/-! ## BUILD -/

/-- R83: BUILD on an idle block with NLEN at most 16 loads the working registers and starts the walk (the tree discarded and the outcome
flags cleared before, R81). -/
def Obligations.BuildStartsTheWalk : Prop :=
  ∀ s : State, s.phase = .idle → s.nlen.toNat ≤ 16 →
    ∃ counts : Vector Count 16, (∀ k : Fin 16, counts[k] = if k.val < s.nlen.toNat then s.len[k] else 0) ∧
      exec .build s = .next { s with
        nodes := [(0, rootClear)], alloc := 1, cursor := 0, derr := false, berr := none, built := false,
        result := ⟨false, false, 0⟩, cnt := counts, i := 0, depth := 0, order := 1, vidx := 0, phase := .build }

/-- R82: BUILD with more than 16 buckets fails at once with TableTooLarge and leaves the bare root, whatever LEN, NVAL and VAL hold. -/
def Obligations.BuildRejectsTooLargeTable : Prop :=
  ∀ s : State, s.phase = .idle → 16 < s.nlen.toNat →
    exec .build s = .next { s with
      nodes := [(0, rootClear)], alloc := 1, cursor := 0, derr := false, berr := some .tableTooLarge, built := false,
      result := ⟨false, false, 0⟩, phase := .idle }

/-- R81, R83, R51: what BUILD leaves unchanged: the table registers, every VAL entry, and the model's own fields; in the node memory
nothing but N[0] is left. -/
def Obligations.BuildFrame : Prop :=
  ∀ s t : State, exec .build s = .next t →
    t.nlen = s.nlen ∧ t.len = s.len ∧ t.nval = s.nval ∧ (∀ k, valAt t k = valAt s k) ∧ t.turns = s.turns ∧ t.rdata = s.rdata ∧
      t.draws = s.draws ∧ (s.phase = .idle → t.nodes = [(0, rootClear)])

/-! ## The engine -/

/-- R84: the dispatch table: while a build runs the engine takes exactly one step, that of the first test that holds. An engine event (R10)
does what the engine does with no event left, the later events kept (the events are the model's own, log 1, log 14). -/
def Obligations.DispatchTakesTheFirstTestThatHolds : Prop :=
  ∀ s : State,
    let c := nodeAt s s.cursor.toNat
    let t1 := s.i.toNat = s.nlen.toNat
    let t2 := cntAt s s.i.toNat = 0
    let t3 := s.depth.toNat = s.i.toNat + 1 ∧ s.vidx.toNat < s.nval.toNat
    let t4 := s.depth.toNat = s.i.toNat + 1 ∧ s.nval.toNat ≤ s.vidx.toNat
    let t5 := c.left = none
    let t6 := ∃ l, c.left = some l ∧ (nodeAt s l.toNat).used = false ∧ (nodeAt s l.toNat).visited ≠ s.order
    let t7 := c.right = none
    let t8 := ∃ r, c.right = some r ∧ (nodeAt s r.toNat).used = false ∧ (nodeAt s r.toNat).visited ≠ s.order
    let t9 := c.parent ≠ none
    (s.phase = .build → s.turns = [] → step s = .next (engineEffect (engineChoice s) s)) ∧
    (s.phase = .build → ∀ ts, s.turns = .engine :: ts →
      step s = .next (engineEffect (engineChoice s) { s with turns := ts }) ∧
      ∃ u, step { s with turns := [] } = .next u ∧ step s = .next { u with turns := ts }) ∧
    (engineChoice s = .finish ↔ t1) ∧
    (engineChoice s = .skip ↔ ¬t1 ∧ t2) ∧
    (engineChoice s = .place ↔ ¬t1 ∧ ¬t2 ∧ t3) ∧
    (engineChoice s = .failTooFewValues ↔ ¬t1 ∧ ¬t2 ∧ ¬t3 ∧ t4) ∧
    (engineChoice s = .dlNew ↔ ¬t1 ∧ ¬t2 ∧ ¬t3 ∧ ¬t4 ∧ t5) ∧
    (engineChoice s = .dlOld ↔ ¬t1 ∧ ¬t2 ∧ ¬t3 ∧ ¬t4 ∧ ¬t5 ∧ t6) ∧
    (engineChoice s = .drNew ↔ ¬t1 ∧ ¬t2 ∧ ¬t3 ∧ ¬t4 ∧ ¬t5 ∧ ¬t6 ∧ t7) ∧
    (engineChoice s = .drOld ↔ ¬t1 ∧ ¬t2 ∧ ¬t3 ∧ ¬t4 ∧ ¬t5 ∧ ¬t6 ∧ ¬t7 ∧ t8) ∧
    (engineChoice s = .ascend ↔ ¬t1 ∧ ¬t2 ∧ ¬t3 ∧ ¬t4 ∧ ¬t5 ∧ ¬t6 ∧ ¬t7 ∧ ¬t8 ∧ t9) ∧
    (engineChoice s = .failInfeasible ↔ ¬t1 ∧ ¬t2 ∧ ¬t3 ∧ ¬t4 ∧ ¬t5 ∧ ¬t6 ∧ ¬t7 ∧ ¬t8 ∧ ¬t9)

/-- R84, R85: FINISH ends the build with BUILT set and changes nothing else; under the invariant the cursor is at the root. -/
def Obligations.EngineFinishes : Prop :=
  ∀ s : State, s.phase = .build → s.turns = [] → s.i.toNat = s.nlen.toNat →
    step s = .next { s with built := true, phase := .idle } ∧ (Inv s → s.berr = none ∧ s.cursor = 0 ∧ s.depth = 0)

/-- R86: SKIP moves to the next bucket and changes nothing else; under the invariant the walk is at the root. -/
def Obligations.EngineSkipsAnEmptyBucket : Prop :=
  ∀ s : State, s.phase = .build → s.turns = [] → s.i.toNat < s.nlen.toNat → cntAt s s.i.toNat = 0 →
    step s = .next { s with i := s.i + 1 } ∧ (Inv s → s.depth = 0 ∧ s.cursor = 0 ∧ (s.i + 1).toNat = s.i.toNat + 1)

/-- R87: PLACE makes the node under the cursor a leaf with the next value and starts the next pass at the root; under the invariant that
node is not the root, childless and not used before. -/
def Obligations.EnginePlacesTheNextValue : Prop :=
  ∀ s : State, s.phase = .build → s.turns = [] → s.i.toNat < s.nlen.toNat → 0 < (cntAt s s.i.toNat).toNat →
    s.depth.toNat = s.i.toNat + 1 → s.vidx.toNat < s.nval.toNat →
    (Inv s → s.cursor ≠ 0 ∧ childless (nodeAt s s.cursor.toNat) = true ∧ (nodeAt s s.cursor.toNat).used = false) ∧
    ∃ t, step s = .next t ∧
      t = { s with nodes := t.nodes, vidx := s.vidx + 1, cursor := 0, depth := 0, cnt := t.cnt, order := s.order + 1 } ∧
      nodeAt t s.cursor.toNat = { nodeAt s s.cursor.toNat with value := valAt s s.vidx.toNat, used := true } ∧
      (∀ k, k ≠ s.cursor.toNat → nodeAt t k = nodeAt s k) ∧
      ∀ k : Fin 16, t.cnt[k] = if k.val = s.i.toNat then s.cnt[k] - 1 else s.cnt[k]

/-- R88, R94, R95: the two failing steps latch their code, discard the tree and end the build; tables, flags and RESULT keep their
values. -/
def Obligations.EngineFailures : Prop :=
  ∀ s : State, s.phase = .build → s.turns = [] →
    (engineChoice s = .failTooFewValues → step s = .next { s with
      berr := some .tooFewValues, nodes := [(0, rootClear)], alloc := 1, cursor := 0, phase := .idle }) ∧
    (engineChoice s = .failInfeasible → step s = .next { s with
      berr := some .infeasible, nodes := [(0, rootClear)], alloc := 1, cursor := 0, phase := .idle })

/-- R89, R91, R96: DL_NEW and DR_NEW create the node at index `alloc`, hang it under the cursor on its side, and descend into it. -/
def Obligations.EngineCreatesAChild : Prop :=
  ∀ s : State, s.phase = .build → s.turns = [] → s.cursor.toNat < s.alloc.toNat →
    (engineChoice s = .dlNew ∨ engineChoice s = .drNew) →
    ∃ t, step s = .next t ∧
      t = { s with nodes := t.nodes, alloc := s.alloc + 1, cursor := s.alloc, depth := s.depth + 1 } ∧
      nodeAt t s.alloc.toNat =
        { left := none, right := none, parent := some s.cursor, value := 0, used := false, visited := 0 } ∧
      nodeAt t s.cursor.toNat =
        (if engineChoice s = .dlNew then { nodeAt s s.cursor.toNat with left := some s.alloc }
          else { nodeAt s s.cursor.toNat with right := some s.alloc }) ∧
      ∀ k, k ≠ s.cursor.toNat → k ≠ s.alloc.toNat → nodeAt t k = nodeAt s k

/-- R90, R92: DL_OLD and DR_OLD move the cursor into the existing child, one level deeper, and write no node. -/
def Obligations.EngineDescends : Prop :=
  ∀ s : State, s.phase = .build → s.turns = [] →
    (engineChoice s = .dlOld → ∃ l, (nodeAt s s.cursor.toNat).left = some l ∧
      step s = .next { s with cursor := l, depth := s.depth + 1 }) ∧
    (engineChoice s = .drOld → ∃ r, (nodeAt s s.cursor.toNat).right = some r ∧
      step s = .next { s with cursor := r, depth := s.depth + 1 })

/-- R93: ASCEND stamps the node with the current pass and moves to its parent, one level up. -/
def Obligations.EngineAscends : Prop :=
  ∀ s : State, s.phase = .build → s.turns = [] → engineChoice s = .ascend →
    ∃ t p, step s = .next t ∧ (nodeAt s s.cursor.toNat).parent = some p ∧
      t = { s with nodes := t.nodes, cursor := p, depth := s.depth - 1 } ∧
      nodeAt t s.cursor.toNat = { nodeAt s s.cursor.toNat with visited := s.order } ∧
      ∀ k, k ≠ s.cursor.toNat → nodeAt t k = nodeAt s k

/-- R46, R51, R83, R95: an engine turn, whichever it is, leaves the table registers, DERR, RESULT and the other agents' data alone. -/
def Obligations.EngineFrame : Prop :=
  ∀ s t : State, (s.turns = [] ∨ ∃ ts, s.turns = .engine :: ts) → step s = .next t →
    t.nlen = s.nlen ∧ t.len = s.len ∧ t.nval = s.nval ∧ (∀ k, valAt t k = valAt s k) ∧ t.derr = s.derr ∧ t.result = s.result ∧
      t.rdata = s.rdata ∧ t.draws = s.draws

/-! ## MOVE and RESTART -/

/-- R111: MOVE while DERR is set is refused: RESULT says InvalidCode and nothing else changes. -/
def Obligations.MoveIsRefusedWhileDerr : Prop :=
  ∀ (b : Bool) (s : State), s.phase = .idle → s.derr = true →
    exec (.move b) s = .next { s with result := ⟨true, false, 0⟩ }

/-- R113: MOVE along an absent edge sets DERR and RESULT.ERR and changes nothing else but the cursor, of which nothing is said (U1, a free
value, log 4). -/
def Obligations.MoveOnAbsentEdgeRaisesInvalidCode : Prop :=
  ∀ (b : Bool) (s : State), s.phase = .idle → s.derr = false →
    (if b then (nodeAt s s.cursor.toNat).right else (nodeAt s s.cursor.toNat).left) = none →
    ∃ t, exec (.move b) s = .next t ∧
      t = { s with derr := true, result := ⟨true, false, 0⟩, cursor := t.cursor, draws := t.draws }

/-- R112, R114: MOVE along an edge to a node that has a child moves the cursor there and returns no symbol. -/
def Obligations.MoveAdvancesToAnInternalChild : Prop :=
  ∀ (b : Bool) (s : State) (k : NodeIdx), s.phase = .idle → s.derr = false →
    (if b then (nodeAt s s.cursor.toNat).right else (nodeAt s s.cursor.toNat).left) = some k →
    ((nodeAt s k.toNat).left ≠ none ∨ (nodeAt s k.toNat).right ≠ none) →
    exec (.move b) s = .next { s with cursor := k, result := ⟨false, false, 0⟩ }

/-- R112, R115: MOVE along an edge to a childless node returns its value and puts the cursor at the root. -/
def Obligations.MoveEmitsTheLeafSymbol : Prop :=
  ∀ (b : Bool) (s : State) (k : NodeIdx), s.phase = .idle → s.derr = false →
    (if b then (nodeAt s s.cursor.toNat).right else (nodeAt s s.cursor.toNat).left) = some k →
    (nodeAt s k.toNat).left = none → (nodeAt s k.toNat).right = none →
    exec (.move b) s = .next { s with cursor := 0, result := ⟨false, true, (nodeAt s k.toNat).value⟩ }

/-- R117: RESTART puts the cursor at the root, clears DERR and RESULT, and changes nothing else. -/
def Obligations.RestartReturnsToTheRoot : Prop :=
  ∀ s : State, s.phase = .idle →
    exec .restart s = .next { s with cursor := 0, derr := false, result := ⟨false, false, 0⟩ }

/-- R110, R117, R118: no MOVE and no RESTART writes a node, `alloc`, a table register, a working register, BERR or BUILT. -/
def Obligations.MoveAndRestartFrame : Prop :=
  ∀ (s t : State) (i : Instr), (i = .restart ∨ ∃ b, i = .move b) → exec i s = .next t →
    (∀ k, nodeAt t k = nodeAt s k) ∧ (∀ k, valAt t k = valAt s k) ∧
      t = { s with cursor := t.cursor, derr := t.derr, result := t.result, draws := t.draws } ∧
      (i = .restart → t.draws = s.draws)

/-- R134, R110: a MOVE raises InvalidCode exactly when DERR is still set or the chosen edge is absent, and latches it in both DERR and
RESULT.ERR; else it leaves DERR clear. -/
def Obligations.InvalidCodeHasTwoCauses : Prop :=
  ∀ (b : Bool) (s : State), s.phase = .idle → ∃ t, exec (.move b) s = .next t ∧
    (t.result.err = true ↔ s.derr = true ∨
      (if b then (nodeAt s s.cursor.toNat).right else (nodeAt s s.cursor.toNat).left) = none) ∧
    t.derr = t.result.err ∧ (t.result.err = true → t.result.sv = false ∧ t.result.sym = 0)

/-- R113, U1: while DERR is set nothing depends on the cursor: two idle blocks that differ in the cursor alone answer every event alike,
and as soon as DERR is clear again they are the same. -/
def Obligations.LostCursorIsNeverObserved : Prop :=
  ∀ (s t : State) (c : NodeIdx), s.phase = .idle → s.derr = true → step s = .next t →
    ∃ u, step { s with cursor := c } = .next u ∧ u = { t with cursor := u.cursor } ∧ (t.derr = false → u = t)

/-- R121: on a block whose last BUILD did not succeed, or that had none, and on one that holds the bare root, as after a BUILD whose table
has no code, both moves raise InvalidCode. -/
def Obligations.MoveWithoutATreeRaisesInvalidCode : Prop :=
  ∀ (b : Bool) (s : State), Inv s → s.phase = .idle → (s.built = false ∨ s.nodes = [(0, rootClear)]) →
    ∃ t, exec (.move b) s = .next t ∧ t.derr = true ∧ t.result = ⟨true, false, 0⟩ ∧ t.nodes = s.nodes

/-- R85, R86, R121: a BUILD whose table has no code (NLEN = 0, or every supplied count 0) is a SKIP for each bucket and a FINISH, and ends
in success; the bare root stands all the while. -/
def Obligations.BuildOfNoCodesLeavesTheBareRoot : Prop :=
  ∀ s : State, s.phase = .idle → s.nlen.toNat ≤ 16 → (∀ k : Fin 16, k.val < s.nlen.toNat → s.len[k] = 0) →
    (∀ n, (afterBuild s n).nodes = [(0, rootClear)] ∧ (afterBuild s n).alloc = 1 ∧ (afterBuild s n).cursor = 0 ∧
      (afterBuild s n).berr = none) ∧
    (∀ n, n ≤ s.nlen.toNat → (afterBuild s n).phase = .build ∧ (afterBuild s n).built = false) ∧
    ∀ n, s.nlen.toNat < n → (afterBuild s n).phase = .idle ∧ (afterBuild s n).built = true

/-- R116, R140: once DERR is set every further bit gives InvalidCode and nothing else changes. -/
def Obligations.DecodeErrorIsSticky : Prop :=
  ∀ (bits : List Bool) (s : State), s.phase = .idle → s.derr = true → s.result = ⟨true, false, 0⟩ →
    afterMoves bits s = (List.replicate bits.length ⟨true, false, 0⟩, s)

/-- R118: a symbol is returned, or InvalidCode raised, on at most the sixteenth bit. -/
def Obligations.SixteenBitsGiveASymbolOrAnError : Prop :=
  ∀ (bits : List Bool) (s : State), Inv s → s.phase = .idle → s.derr = false → bits.length = 16 →
    ∃ r ∈ (afterMoves bits s).1, r.sv = true ∨ r.err = true

/-- R51(a): what the table registers hold has no effect on a MOVE. -/
def Obligations.MoveIgnoresTheTables : Prop :=
  ∀ (b : Bool) (s t : State) (n : BitVec 8) (l : Vector Count 16) (m : BitVec 17) (v : List Host.Cell),
    exec (.move b) s = .next t →
    exec (.move b) { s with nlen := n, len := l, nval := m, vals := v } = .next { t with nlen := n, len := l, nval := m, vals := v }

/-! ## The whole machine -/

/-- R26: the state after reset, every piece the spec gives a value for; no other node and no VAL entry holds a known value. -/
def Obligations.ResetState : Prop :=
  State.reset.nodes = [(0, { left := none, right := none, parent := none, value := 0, used := false, visited := 0 })] ∧
    State.reset.alloc = 1 ∧ State.reset.cursor = 0 ∧ State.reset.phase = .idle ∧ State.reset.i = 0 ∧ State.reset.depth = 0 ∧
    State.reset.order = 0 ∧ State.reset.vidx = 0 ∧ (∀ k : Fin 16, State.reset.cnt[k] = 0) ∧ State.reset.nlen = 0 ∧
    (∀ k : Fin 16, State.reset.len[k] = 0) ∧ State.reset.nval = 0 ∧ State.reset.derr = false ∧ State.reset.berr = none ∧
    State.reset.built = false ∧ State.reset.result = ⟨false, false, 0⟩ ∧ ∀ k, lookup State.reset.vals k = none

/-- R160: the reset input, in any state, during a build too, puts every register at its reset value and keeps VAL. -/
def Obligations.ResetInputEffect : Prop :=
  ∀ (s : State) (ts : List Turn), s.turns = .reset :: ts →
    ∃ t, step s = .next t ∧ (∀ k, valAt t k = valAt s k) ∧
      blockOf t = { blockOf State.reset with vals := t.vals } ∧ t.turns = ts

/-- R43, R97, R98 (no behaviour is a fault or stuck): in every state, every turn the interface can express is answered by a next state. -/
def Obligations.EveryLegalTurnHasANextState : Prop :=
  ∀ s : State, (∀ e ∈ s.turns.head?, e.legal = true) → ∃ t, step s = .next t

/-- R18, R46: a table register changes only by a reset or by a host write to that register on an idle block. -/
def Obligations.TablesChangeOnlyByHostWrites : Prop :=
  ∀ s t : State, step s = .next t →
    (∃ ts, s.turns = .reset :: ts) ∨
    ((t.nlen ≠ s.nlen → s.phase = .idle ∧ ∃ v ts, s.turns = .write 0x0000C 4 v :: ts) ∧
      (t.nval ≠ s.nval → s.phase = .idle ∧ ∃ v ts, s.turns = .write 0x00010 4 v :: ts) ∧
      (∀ k : Fin 16, t.len[k] ≠ s.len[k] → s.phase = .idle ∧ ∃ v ts, s.turns = .write (0x00040 + 4 * k.val) 4 v :: ts) ∧
      ∀ k, valAt t k ≠ valAt s k → s.phase = .idle ∧ ∃ v ts, s.turns = .write (0x40000 + 4 * k) 4 v :: ts)

/-- R51(c), R118: while no build runs, the tree changes only by a BUILD command or a reset. -/
def Obligations.TreeIsImmutableBetweenBuilds : Prop :=
  ∀ s t : State, s.phase = .idle → step s = .next t →
    (t.nodes = s.nodes ∧ t.alloc = s.alloc) ∨ (∃ ts, s.turns = .reset :: ts) ∨
      ∃ ts, s.turns = .write 0x00000 4 0x00000010#32 :: ts

/-- R140, R20, R22: DERR is cleared only by RESTART, BUILD or reset, each of which puts the cursor at the root; BERR and BUILT are cleared
only by BUILD or reset; BUILT is set only by FINISH. -/
def Obligations.WhatClearsTheErrorFlags : Prop :=
  ∀ s t : State, step s = .next t →
    (s.derr = true → t.derr = false → t.cursor = 0 ∧ ((∃ ts, s.turns = .reset :: ts) ∨ (s.phase = .idle ∧ ∃ w ts,
      s.turns = .write 0x00000 4 w :: ts ∧ (w = 0x00000010#32 ∨ w = 0x00000030#32)))) ∧
    ((s.berr ≠ none ∧ t.berr = none) ∨ (s.built = true ∧ t.built = false) → (∃ ts, s.turns = .reset :: ts) ∨
      (s.phase = .idle ∧ ∃ ts, s.turns = .write 0x00000 4 0x00000010#32 :: ts)) ∧
    (s.built = false → t.built = true → s.phase = .build ∧ engineChoice s = .finish)

/-- R20, R22, R147: DERR is set only by a MOVE along an absent edge; BERR is set only by a BUILD with NLEN above 16 or by the engine's two
failing steps, each to its own code; BUILT only by FINISH; BUSY only by a BUILD with NLEN at most 16, so that IDLE is left by nothing else;
BUSY is cleared only by FINISH, a failing step or reset; RESULT is written only by a command or reset. -/
def Obligations.WhatSetsTheFlags : Prop :=
  ∀ s t : State, step s = .next t →
    let engines := s.phase = .build ∧ (s.turns = [] ∨ ∃ ts, s.turns = .engine :: ts)
    let accepted := fun w : Word => s.phase = .idle ∧ ∃ ts, s.turns = .write 0x00000 4 w :: ts
    let resets := ∃ ts, s.turns = .reset :: ts
    (s.derr = false → t.derr = true →
      (accepted 0x00000020#32 ∧ (nodeAt s s.cursor.toNat).left = none) ∨
      (accepted 0x00000021#32 ∧ (nodeAt s s.cursor.toNat).right = none)) ∧
    (∀ e, t.berr = some e → s.berr ≠ some e →
      (e = .tableTooLarge ∧ accepted 0x00000010#32 ∧ 16 < s.nlen.toNat) ∨
      (e = .tooFewValues ∧ engines ∧ engineChoice s = .failTooFewValues) ∨
      (e = .infeasible ∧ engines ∧ engineChoice s = .failInfeasible)) ∧
    (s.built = false → t.built = true → engines ∧ engineChoice s = .finish) ∧
    (s.phase = .idle → t.phase = .build → accepted 0x00000010#32 ∧ s.nlen.toNat ≤ 16) ∧
    (s.phase = .build → t.phase = .idle → resets ∨ (engines ∧
      (engineChoice s = .finish ∨ engineChoice s = .failTooFewValues ∨ engineChoice s = .failInfeasible))) ∧
    (t.result ≠ s.result → resets ∨ accepted 0x00000010#32 ∨ accepted 0x00000020#32 ∨ accepted 0x00000021#32 ∨
      accepted 0x00000030#32)

/-- R85, R95, R138: a build that ends by itself ends in success with its tree kept, or in TooFewValues or Infeasible with the bare root. -/
def Obligations.HowABuildEnds : Prop :=
  ∀ s t : State, Inv s → s.phase = .build → step s = .next t → t.phase = .idle →
    (∃ ts, s.turns = .reset :: ts) ∨
    (t.built = true ∧ t.berr = none ∧ t.nodes = s.nodes ∧ t.alloc = s.alloc ∧ t.cursor = 0) ∨
    (t.built = false ∧ (t.berr = some .tooFewValues ∨ t.berr = some .infeasible) ∧ t.nodes = [(0, rootClear)] ∧ t.alloc = 1 ∧
      t.cursor = 0 ∧ t.derr = false ∧ t.result = ⟨false, false, 0⟩)

/-- The invariant (R13, R15, R16, R97, R118, R121) holds after reset. -/
def Obligations.ResetMeetsTheInvariant : Prop := Inv State.reset

/-- The invariant (R13, R15, R16, R97, R118, R121) is kept by every step, whatever the next event is. -/
def Obligations.EveryStepKeepsTheInvariant : Prop :=
  ∀ s t : State, Inv s → step s = .next t → Inv t

/-- R97(h), R16, R53: under the invariant no addition or subtraction of an engine step leaves the width of its register, and creating a
node never exceeds the node memory. -/
def Obligations.EngineArithmeticNeverWraps : Prop :=
  ∀ s : State, Inv s → s.phase = .build →
    (engineChoice s = .skip → s.i.toNat + 1 ≤ 16) ∧
    (engineChoice s = .place → s.vidx.toNat + 1 ≤ 65536 ∧ s.order.toNat + 1 ≤ 65537 ∧ 1 ≤ (cntAt s s.i.toNat).toNat) ∧
    (engineChoice s = .dlNew ∨ engineChoice s = .drNew → s.alloc.toNat + 1 ≤ 131071 ∧ s.depth.toNat + 1 ≤ 16) ∧
    (engineChoice s = .dlOld ∨ engineChoice s = .drOld → s.depth.toNat + 1 ≤ 16) ∧
    (engineChoice s = .ascend → 1 ≤ s.depth.toNat)

/-- R46, R48(c), R98: while a build runs, host accesses between the engine's turns do not change what the engine does: only the number of
its turns counts. -/
def Obligations.HostCannotDisturbABuild : Prop :=
  ∀ (ts : List Turn) (s : State), s.phase = .build → (∀ e ∈ ts, e.legal = true ∧ e ≠ .reset) →
    (engineTurns (ts.count .engine) s).phase = .build →
    ∃ t, Host.Core.run Sys2Proof.core ts.length { s with turns := ts } = .next t ∧
      blockOf t = blockOf (engineTurns (ts.count .engine) s)

/-- R100: what a BUILD makes of the block depends only on the tables, never on what was built or decoded before. -/
def Obligations.RebuildForgetsThePast : Prop :=
  ∀ s u : State, s.phase = .idle → u.phase = .idle → s.nlen = u.nlen → s.len = u.len → s.nval = u.nval →
    (∀ k, valAt s k = valAt u k) → ∀ n,
    (afterBuild s n).nodes = (afterBuild u n).nodes ∧ (afterBuild s n).alloc = (afterBuild u n).alloc ∧
      (afterBuild s n).cursor = (afterBuild u n).cursor ∧ (afterBuild s n).phase = (afterBuild u n).phase ∧
      (afterBuild s n).derr = (afterBuild u n).derr ∧ (afterBuild s n).berr = (afterBuild u n).berr ∧
      (afterBuild s n).built = (afterBuild u n).built ∧ (afterBuild s n).result = (afterBuild u n).result

/-- U8, R164: the shape of the tree and the error outcome of a BUILD do not depend on what VAL holds. -/
def Obligations.ValuesDoNotShapeTheTree : Prop :=
  ∀ (s : State) (v : List Host.Cell) (n k : Nat), s.phase = .idle →
    { nodeAt (afterBuild s n) k with value := 0 } = { nodeAt (afterBuild { s with vals := v } n) k with value := 0 } ∧
      blockOf { afterBuild s n with nodes := [], vals := v } = blockOf { afterBuild { s with vals := v } n with nodes := [] }

/-- R98: every BUILD ends after fewer than 2^35 engine steps. -/
def Obligations.EveryBuildEnds : Prop :=
  ∀ s : State, s.phase = .idle → ∃ n, n < 2 ^ 35 ∧ (afterBuild s n).phase = .idle

/-- R99: the outcome of a BUILD as a function of the tables. -/
def Obligations.BuildOutcomeIsTheKraftCondition : Prop :=
  ∀ (s : State) (n : Nat), s.phase = .idle → (afterBuild s n).phase = .idle →
    (afterBuild s n).berr = buildOutcome s ∧ ((afterBuild s n).built = true ↔ buildOutcome s = none)

/-- R68, R99 case 4, R119: after a successful BUILD the bits of canonical code j give no symbol but on the last bit, which gives VAL[j], and
leave the decoder at the root. -/
def Obligations.CanonicalCodesDecodeToTheirValues : Prop :=
  ∀ (s : State) (n j : Nat) (c : Nat × Nat), s.phase = .idle → (afterBuild s n).phase = .idle → (afterBuild s n).built = true →
    (canonicalCodes (lengthSequence s))[j]? = some c →
    afterMoves (codeBits c) (afterBuild s n) =
      (List.replicate (c.1 - 1) ⟨false, false, 0⟩ ++ [⟨false, true, valAt s j⟩],
        { afterBuild s n with cursor := 0, result := ⟨false, true, valAt s j⟩ })
end

