-- ==== Sys2Proof/Laws/Memory.lean ====
section
/-! SUPPORT. The laws of the sparse memories: read after write, and the canonical form. -/

namespace Sys2Proof.Machine

variable {α : Type}

@[simp] theorem lookup_nil (k : Nat) : lookup ([] : List (Nat × α)) k = none := rfl

theorem lookup_cons (a : Nat) (x : α) (m : List (Nat × α)) (k : Nat) :
    lookup ((a, x) :: m) k = if a = k then some x else lookup m k := rfl

@[simp] theorem lookup_store_same (m : List (Nat × α)) (k : Nat) (x : α) : lookup (store m k x) k = some x := by
  induction m with
  | nil => simp [store, lookup]
  | cons e m ih =>
    obtain ⟨a, y⟩ := e
    simp only [store]
    split
    · simp [lookup]
    · split
      · simp [lookup]
      · simp_all [lookup]

@[simp] theorem lookup_store_other (m : List (Nat × α)) (k j : Nat) (x : α) (h : j ≠ k) :
    lookup (store m k x) j = lookup m j := by
  induction m with
  | nil => simp [store, lookup, h.symm]
  | cons e m ih =>
    obtain ⟨a, y⟩ := e
    simp only [store]
    split
    · simp [lookup, h.symm]
    · split
      · next h₂ => subst h₂; simp [lookup, h.symm]
      · simp [lookup, ih]

/-- A list in canonical form has a canonical tail. -/
theorem memoryWf_tail {e : Nat × α} {m : List (Nat × α)} (h : memoryWf (e :: m) = true) : memoryWf m = true := by
  cases m with
  | nil => rfl
  | cons f m => simp only [memoryWf, Bool.and_eq_true] at h; exact h.2

/-- Every write keeps the canonical form. -/
theorem memoryWf_store (m : List (Nat × α)) (k : Nat) (x : α) (h : memoryWf m = true) : memoryWf (store m k x) = true := by
  induction m with
  | nil => rfl
  | cons e m ih =>
    obtain ⟨a, y⟩ := e
    have tail := ih (memoryWf_tail h)
    simp only [store]
    split
    · next lt => simp [memoryWf, lt, h]
    · split
      · next eq => subst eq; cases m <;> simp_all [memoryWf]
      · next ge ne =>
        have lt : a < k := by omega
        cases m with
        | nil => simp [store, memoryWf, lt]
        | cons f m =>
          obtain ⟨b, z⟩ := f
          simp only [memoryWf, Bool.and_eq_true, decide_eq_true_eq] at h
          simp only [store] at tail ⊢
          split
          · next l => rw [if_pos l] at tail; simp [memoryWf, lt, l, h.2]
          · next l =>
            rw [if_neg l] at tail
            split
            · next e => subst e; rw [if_pos rfl] at tail; simp [memoryWf, lt, tail]
            · next n => rw [if_neg n] at tail; simp [memoryWf, h.1, tail]

/-- The memories of the reset state are in canonical form. -/
theorem memoryWf_reset : memoryWf State.reset.nodes = true ∧ memoryWf State.reset.vals = true := ⟨rfl, rfl⟩

/-- A write through `setNode` or `setVal` keeps both memories in canonical form. -/
theorem memoryWf_setNode (s : State) (k : Nat) (n : Node) (h : memoryWf s.nodes = true) :
    memoryWf (setNode s k n).nodes = true := memoryWf_store _ _ _ h

theorem memoryWf_setVal (s : State) (k : Nat) (v : Sym) (h : memoryWf s.vals = true) :
    memoryWf (setVal s k v).vals = true := memoryWf_store _ _ _ h

end Sys2Proof.Machine
end

