-- ==== Sys2Proof/Laws/State.lean ====
section
/-! SUPPORT. One lemma for each field of State and each named update of it, so that no proof unfolds a record update. -/

namespace Sys2Proof.Machine

@[simp] theorem setNode_nodes (s : State) (k : Nat) (n : Node) : (setNode s k n).nodes = store s.nodes k n := rfl
@[simp] theorem setNode_alloc (s : State) (k : Nat) (n : Node) : (setNode s k n).alloc = s.alloc := rfl
@[simp] theorem setNode_cursor (s : State) (k : Nat) (n : Node) : (setNode s k n).cursor = s.cursor := rfl
@[simp] theorem setNode_phase (s : State) (k : Nat) (n : Node) : (setNode s k n).phase = s.phase := rfl
@[simp] theorem setNode_i (s : State) (k : Nat) (n : Node) : (setNode s k n).i = s.i := rfl
@[simp] theorem setNode_depth (s : State) (k : Nat) (n : Node) : (setNode s k n).depth = s.depth := rfl
@[simp] theorem setNode_order (s : State) (k : Nat) (n : Node) : (setNode s k n).order = s.order := rfl
@[simp] theorem setNode_vidx (s : State) (k : Nat) (n : Node) : (setNode s k n).vidx = s.vidx := rfl
@[simp] theorem setNode_cnt (s : State) (k : Nat) (n : Node) : (setNode s k n).cnt = s.cnt := rfl
@[simp] theorem setNode_nlen (s : State) (k : Nat) (n : Node) : (setNode s k n).nlen = s.nlen := rfl
@[simp] theorem setNode_len (s : State) (k : Nat) (n : Node) : (setNode s k n).len = s.len := rfl
@[simp] theorem setNode_nval (s : State) (k : Nat) (n : Node) : (setNode s k n).nval = s.nval := rfl
@[simp] theorem setNode_vals (s : State) (k : Nat) (n : Node) : (setNode s k n).vals = s.vals := rfl
@[simp] theorem setNode_derr (s : State) (k : Nat) (n : Node) : (setNode s k n).derr = s.derr := rfl
@[simp] theorem setNode_berr (s : State) (k : Nat) (n : Node) : (setNode s k n).berr = s.berr := rfl
@[simp] theorem setNode_built (s : State) (k : Nat) (n : Node) : (setNode s k n).built = s.built := rfl
@[simp] theorem setNode_result (s : State) (k : Nat) (n : Node) : (setNode s k n).result = s.result := rfl
@[simp] theorem setNode_turns (s : State) (k : Nat) (n : Node) : (setNode s k n).turns = s.turns := rfl
@[simp] theorem setNode_rdata (s : State) (k : Nat) (n : Node) : (setNode s k n).rdata = s.rdata := rfl
@[simp] theorem setNode_draws (s : State) (k : Nat) (n : Node) : (setNode s k n).draws = s.draws := rfl

@[simp] theorem setVal_nodes (s : State) (k : Nat) (v : Sym) : (setVal s k v).nodes = s.nodes := rfl
@[simp] theorem setVal_alloc (s : State) (k : Nat) (v : Sym) : (setVal s k v).alloc = s.alloc := rfl
@[simp] theorem setVal_cursor (s : State) (k : Nat) (v : Sym) : (setVal s k v).cursor = s.cursor := rfl
@[simp] theorem setVal_phase (s : State) (k : Nat) (v : Sym) : (setVal s k v).phase = s.phase := rfl
@[simp] theorem setVal_i (s : State) (k : Nat) (v : Sym) : (setVal s k v).i = s.i := rfl
@[simp] theorem setVal_depth (s : State) (k : Nat) (v : Sym) : (setVal s k v).depth = s.depth := rfl
@[simp] theorem setVal_order (s : State) (k : Nat) (v : Sym) : (setVal s k v).order = s.order := rfl
@[simp] theorem setVal_vidx (s : State) (k : Nat) (v : Sym) : (setVal s k v).vidx = s.vidx := rfl
@[simp] theorem setVal_cnt (s : State) (k : Nat) (v : Sym) : (setVal s k v).cnt = s.cnt := rfl
@[simp] theorem setVal_nlen (s : State) (k : Nat) (v : Sym) : (setVal s k v).nlen = s.nlen := rfl
@[simp] theorem setVal_len (s : State) (k : Nat) (v : Sym) : (setVal s k v).len = s.len := rfl
@[simp] theorem setVal_nval (s : State) (k : Nat) (v : Sym) : (setVal s k v).nval = s.nval := rfl
@[simp] theorem setVal_vals (s : State) (k : Nat) (v : Sym) : (setVal s k v).vals = store s.vals k v := rfl
@[simp] theorem setVal_derr (s : State) (k : Nat) (v : Sym) : (setVal s k v).derr = s.derr := rfl
@[simp] theorem setVal_berr (s : State) (k : Nat) (v : Sym) : (setVal s k v).berr = s.berr := rfl
@[simp] theorem setVal_built (s : State) (k : Nat) (v : Sym) : (setVal s k v).built = s.built := rfl
@[simp] theorem setVal_result (s : State) (k : Nat) (v : Sym) : (setVal s k v).result = s.result := rfl
@[simp] theorem setVal_turns (s : State) (k : Nat) (v : Sym) : (setVal s k v).turns = s.turns := rfl
@[simp] theorem setVal_rdata (s : State) (k : Nat) (v : Sym) : (setVal s k v).rdata = s.rdata := rfl
@[simp] theorem setVal_draws (s : State) (k : Nat) (v : Sym) : (setVal s k v).draws = s.draws := rfl

@[simp] theorem discard_nodes (s : State) : (discard s).nodes = [(0, rootClear)] := rfl
@[simp] theorem discard_alloc (s : State) : (discard s).alloc = 1 := rfl
@[simp] theorem discard_cursor (s : State) : (discard s).cursor = 0 := rfl
@[simp] theorem discard_phase (s : State) : (discard s).phase = s.phase := rfl
@[simp] theorem discard_i (s : State) : (discard s).i = s.i := rfl
@[simp] theorem discard_depth (s : State) : (discard s).depth = s.depth := rfl
@[simp] theorem discard_order (s : State) : (discard s).order = s.order := rfl
@[simp] theorem discard_vidx (s : State) : (discard s).vidx = s.vidx := rfl
@[simp] theorem discard_cnt (s : State) : (discard s).cnt = s.cnt := rfl
@[simp] theorem discard_nlen (s : State) : (discard s).nlen = s.nlen := rfl
@[simp] theorem discard_len (s : State) : (discard s).len = s.len := rfl
@[simp] theorem discard_nval (s : State) : (discard s).nval = s.nval := rfl
@[simp] theorem discard_vals (s : State) : (discard s).vals = s.vals := rfl
@[simp] theorem discard_derr (s : State) : (discard s).derr = s.derr := rfl
@[simp] theorem discard_berr (s : State) : (discard s).berr = s.berr := rfl
@[simp] theorem discard_built (s : State) : (discard s).built = s.built := rfl
@[simp] theorem discard_result (s : State) : (discard s).result = s.result := rfl
@[simp] theorem discard_turns (s : State) : (discard s).turns = s.turns := rfl
@[simp] theorem discard_rdata (s : State) : (discard s).rdata = s.rdata := rfl
@[simp] theorem discard_draws (s : State) : (discard s).draws = s.draws := rfl

@[simp] theorem clearDecoder_nodes (s : State) : (clearDecoder s).nodes = s.nodes := rfl
@[simp] theorem clearDecoder_alloc (s : State) : (clearDecoder s).alloc = s.alloc := rfl
@[simp] theorem clearDecoder_cursor (s : State) : (clearDecoder s).cursor = 0 := rfl
@[simp] theorem clearDecoder_phase (s : State) : (clearDecoder s).phase = s.phase := rfl
@[simp] theorem clearDecoder_i (s : State) : (clearDecoder s).i = s.i := rfl
@[simp] theorem clearDecoder_depth (s : State) : (clearDecoder s).depth = s.depth := rfl
@[simp] theorem clearDecoder_order (s : State) : (clearDecoder s).order = s.order := rfl
@[simp] theorem clearDecoder_vidx (s : State) : (clearDecoder s).vidx = s.vidx := rfl
@[simp] theorem clearDecoder_cnt (s : State) : (clearDecoder s).cnt = s.cnt := rfl
@[simp] theorem clearDecoder_nlen (s : State) : (clearDecoder s).nlen = s.nlen := rfl
@[simp] theorem clearDecoder_len (s : State) : (clearDecoder s).len = s.len := rfl
@[simp] theorem clearDecoder_nval (s : State) : (clearDecoder s).nval = s.nval := rfl
@[simp] theorem clearDecoder_vals (s : State) : (clearDecoder s).vals = s.vals := rfl
@[simp] theorem clearDecoder_derr (s : State) : (clearDecoder s).derr = false := rfl
@[simp] theorem clearDecoder_berr (s : State) : (clearDecoder s).berr = s.berr := rfl
@[simp] theorem clearDecoder_built (s : State) : (clearDecoder s).built = s.built := rfl
@[simp] theorem clearDecoder_result (s : State) : (clearDecoder s).result = noSymbol := rfl
@[simp] theorem clearDecoder_turns (s : State) : (clearDecoder s).turns = s.turns := rfl
@[simp] theorem clearDecoder_rdata (s : State) : (clearDecoder s).rdata = s.rdata := rfl
@[simp] theorem clearDecoder_draws (s : State) : (clearDecoder s).draws = s.draws := rfl

@[simp] theorem raiseInvalidCode_nodes (s : State) : (raise .invalidCode s).nodes = s.nodes := rfl
@[simp] theorem raiseInvalidCode_alloc (s : State) : (raise .invalidCode s).alloc = s.alloc := rfl
@[simp] theorem raiseInvalidCode_phase (s : State) : (raise .invalidCode s).phase = s.phase := rfl
@[simp] theorem raiseInvalidCode_i (s : State) : (raise .invalidCode s).i = s.i := rfl
@[simp] theorem raiseInvalidCode_depth (s : State) : (raise .invalidCode s).depth = s.depth := rfl
@[simp] theorem raiseInvalidCode_order (s : State) : (raise .invalidCode s).order = s.order := rfl
@[simp] theorem raiseInvalidCode_vidx (s : State) : (raise .invalidCode s).vidx = s.vidx := rfl
@[simp] theorem raiseInvalidCode_cnt (s : State) : (raise .invalidCode s).cnt = s.cnt := rfl
@[simp] theorem raiseInvalidCode_nlen (s : State) : (raise .invalidCode s).nlen = s.nlen := rfl
@[simp] theorem raiseInvalidCode_len (s : State) : (raise .invalidCode s).len = s.len := rfl
@[simp] theorem raiseInvalidCode_nval (s : State) : (raise .invalidCode s).nval = s.nval := rfl
@[simp] theorem raiseInvalidCode_vals (s : State) : (raise .invalidCode s).vals = s.vals := rfl
@[simp] theorem raiseInvalidCode_derr (s : State) : (raise .invalidCode s).derr = true := rfl
@[simp] theorem raiseInvalidCode_berr (s : State) : (raise .invalidCode s).berr = s.berr := rfl
@[simp] theorem raiseInvalidCode_built (s : State) : (raise .invalidCode s).built = s.built := rfl
@[simp] theorem raiseInvalidCode_result (s : State) : (raise .invalidCode s).result = invalidResult := rfl
@[simp] theorem raiseInvalidCode_turns (s : State) : (raise .invalidCode s).turns = s.turns := rfl
@[simp] theorem raiseInvalidCode_rdata (s : State) : (raise .invalidCode s).rdata = s.rdata := rfl
@[simp] theorem raiseInvalidCode_draws (s : State) : (raise .invalidCode s).draws = s.draws + 1 := rfl

@[simp] theorem buildClear_nodes (s : State) : (buildClear s).nodes = [(0, rootClear)] := rfl
@[simp] theorem buildClear_alloc (s : State) : (buildClear s).alloc = 1 := rfl
@[simp] theorem buildClear_cursor (s : State) : (buildClear s).cursor = 0 := rfl
@[simp] theorem buildClear_phase (s : State) : (buildClear s).phase = s.phase := rfl
@[simp] theorem buildClear_i (s : State) : (buildClear s).i = s.i := rfl
@[simp] theorem buildClear_depth (s : State) : (buildClear s).depth = s.depth := rfl
@[simp] theorem buildClear_order (s : State) : (buildClear s).order = s.order := rfl
@[simp] theorem buildClear_vidx (s : State) : (buildClear s).vidx = s.vidx := rfl
@[simp] theorem buildClear_cnt (s : State) : (buildClear s).cnt = s.cnt := rfl
@[simp] theorem buildClear_nlen (s : State) : (buildClear s).nlen = s.nlen := rfl
@[simp] theorem buildClear_len (s : State) : (buildClear s).len = s.len := rfl
@[simp] theorem buildClear_nval (s : State) : (buildClear s).nval = s.nval := rfl
@[simp] theorem buildClear_vals (s : State) : (buildClear s).vals = s.vals := rfl
@[simp] theorem buildClear_derr (s : State) : (buildClear s).derr = false := rfl
@[simp] theorem buildClear_berr (s : State) : (buildClear s).berr = none := rfl
@[simp] theorem buildClear_built (s : State) : (buildClear s).built = false := rfl
@[simp] theorem buildClear_result (s : State) : (buildClear s).result = noSymbol := rfl
@[simp] theorem buildClear_turns (s : State) : (buildClear s).turns = s.turns := rfl
@[simp] theorem buildClear_rdata (s : State) : (buildClear s).rdata = s.rdata := rfl
@[simp] theorem buildClear_draws (s : State) : (buildClear s).draws = s.draws := rfl

@[simp] theorem walkInit_nodes (s : State) : (walkInit s).nodes = s.nodes := rfl
@[simp] theorem walkInit_alloc (s : State) : (walkInit s).alloc = s.alloc := rfl
@[simp] theorem walkInit_cursor (s : State) : (walkInit s).cursor = s.cursor := rfl
@[simp] theorem walkInit_phase (s : State) : (walkInit s).phase = .build := rfl
@[simp] theorem walkInit_i (s : State) : (walkInit s).i = 0 := rfl
@[simp] theorem walkInit_depth (s : State) : (walkInit s).depth = 0 := rfl
@[simp] theorem walkInit_order (s : State) : (walkInit s).order = 1 := rfl
@[simp] theorem walkInit_vidx (s : State) : (walkInit s).vidx = 0 := rfl
@[simp] theorem walkInit_cnt (s : State) : (walkInit s).cnt = loadedCounts s.nlen s.len := rfl
@[simp] theorem walkInit_nlen (s : State) : (walkInit s).nlen = s.nlen := rfl
@[simp] theorem walkInit_len (s : State) : (walkInit s).len = s.len := rfl
@[simp] theorem walkInit_nval (s : State) : (walkInit s).nval = s.nval := rfl
@[simp] theorem walkInit_vals (s : State) : (walkInit s).vals = s.vals := rfl
@[simp] theorem walkInit_derr (s : State) : (walkInit s).derr = s.derr := rfl
@[simp] theorem walkInit_berr (s : State) : (walkInit s).berr = s.berr := rfl
@[simp] theorem walkInit_built (s : State) : (walkInit s).built = s.built := rfl
@[simp] theorem walkInit_result (s : State) : (walkInit s).result = s.result := rfl
@[simp] theorem walkInit_turns (s : State) : (walkInit s).turns = s.turns := rfl
@[simp] theorem walkInit_rdata (s : State) : (walkInit s).rdata = s.rdata := rfl
@[simp] theorem walkInit_draws (s : State) : (walkInit s).draws = s.draws := rfl

@[simp] theorem createChild_alloc (s : State) (n : Node) : (createChild s n).alloc = s.alloc + 1 := rfl
@[simp] theorem createChild_cursor (s : State) (n : Node) : (createChild s n).cursor = s.alloc := rfl
@[simp] theorem createChild_phase (s : State) (n : Node) : (createChild s n).phase = s.phase := rfl
@[simp] theorem createChild_i (s : State) (n : Node) : (createChild s n).i = s.i := rfl
@[simp] theorem createChild_depth (s : State) (n : Node) : (createChild s n).depth = s.depth + 1 := rfl
@[simp] theorem createChild_order (s : State) (n : Node) : (createChild s n).order = s.order := rfl
@[simp] theorem createChild_vidx (s : State) (n : Node) : (createChild s n).vidx = s.vidx := rfl
@[simp] theorem createChild_cnt (s : State) (n : Node) : (createChild s n).cnt = s.cnt := rfl
@[simp] theorem createChild_nlen (s : State) (n : Node) : (createChild s n).nlen = s.nlen := rfl
@[simp] theorem createChild_len (s : State) (n : Node) : (createChild s n).len = s.len := rfl
@[simp] theorem createChild_nval (s : State) (n : Node) : (createChild s n).nval = s.nval := rfl
@[simp] theorem createChild_vals (s : State) (n : Node) : (createChild s n).vals = s.vals := rfl
@[simp] theorem createChild_derr (s : State) (n : Node) : (createChild s n).derr = s.derr := rfl
@[simp] theorem createChild_berr (s : State) (n : Node) : (createChild s n).berr = s.berr := rfl
@[simp] theorem createChild_built (s : State) (n : Node) : (createChild s n).built = s.built := rfl
@[simp] theorem createChild_result (s : State) (n : Node) : (createChild s n).result = s.result := rfl
@[simp] theorem createChild_turns (s : State) (n : Node) : (createChild s n).turns = s.turns := rfl
@[simp] theorem createChild_rdata (s : State) (n : Node) : (createChild s n).rdata = s.rdata := rfl
@[simp] theorem createChild_draws (s : State) (n : Node) : (createChild s n).draws = s.draws := rfl

@[simp] theorem descend_nodes (s : State) (k : NodeIdx) : (descend s k).nodes = s.nodes := rfl
@[simp] theorem descend_alloc (s : State) (k : NodeIdx) : (descend s k).alloc = s.alloc := rfl
@[simp] theorem descend_cursor (s : State) (k : NodeIdx) : (descend s k).cursor = k := rfl
@[simp] theorem descend_phase (s : State) (k : NodeIdx) : (descend s k).phase = s.phase := rfl
@[simp] theorem descend_i (s : State) (k : NodeIdx) : (descend s k).i = s.i := rfl
@[simp] theorem descend_depth (s : State) (k : NodeIdx) : (descend s k).depth = s.depth + 1 := rfl
@[simp] theorem descend_order (s : State) (k : NodeIdx) : (descend s k).order = s.order := rfl
@[simp] theorem descend_vidx (s : State) (k : NodeIdx) : (descend s k).vidx = s.vidx := rfl
@[simp] theorem descend_cnt (s : State) (k : NodeIdx) : (descend s k).cnt = s.cnt := rfl
@[simp] theorem descend_nlen (s : State) (k : NodeIdx) : (descend s k).nlen = s.nlen := rfl
@[simp] theorem descend_len (s : State) (k : NodeIdx) : (descend s k).len = s.len := rfl
@[simp] theorem descend_nval (s : State) (k : NodeIdx) : (descend s k).nval = s.nval := rfl
@[simp] theorem descend_vals (s : State) (k : NodeIdx) : (descend s k).vals = s.vals := rfl
@[simp] theorem descend_derr (s : State) (k : NodeIdx) : (descend s k).derr = s.derr := rfl
@[simp] theorem descend_berr (s : State) (k : NodeIdx) : (descend s k).berr = s.berr := rfl
@[simp] theorem descend_built (s : State) (k : NodeIdx) : (descend s k).built = s.built := rfl
@[simp] theorem descend_result (s : State) (k : NodeIdx) : (descend s k).result = s.result := rfl
@[simp] theorem descend_turns (s : State) (k : NodeIdx) : (descend s k).turns = s.turns := rfl
@[simp] theorem descend_rdata (s : State) (k : NodeIdx) : (descend s k).rdata = s.rdata := rfl
@[simp] theorem descend_draws (s : State) (k : NodeIdx) : (descend s k).draws = s.draws := rfl

@[simp] theorem stepPlace_alloc (s : State) : (stepPlace s).alloc = s.alloc := rfl
@[simp] theorem stepPlace_cursor (s : State) : (stepPlace s).cursor = 0 := rfl
@[simp] theorem stepPlace_phase (s : State) : (stepPlace s).phase = s.phase := rfl
@[simp] theorem stepPlace_i (s : State) : (stepPlace s).i = s.i := rfl
@[simp] theorem stepPlace_depth (s : State) : (stepPlace s).depth = 0 := rfl
@[simp] theorem stepPlace_order (s : State) : (stepPlace s).order = s.order + 1 := rfl
@[simp] theorem stepPlace_vidx (s : State) : (stepPlace s).vidx = s.vidx + 1 := rfl
@[simp] theorem stepPlace_nlen (s : State) : (stepPlace s).nlen = s.nlen := rfl
@[simp] theorem stepPlace_len (s : State) : (stepPlace s).len = s.len := rfl
@[simp] theorem stepPlace_nval (s : State) : (stepPlace s).nval = s.nval := rfl
@[simp] theorem stepPlace_vals (s : State) : (stepPlace s).vals = s.vals := rfl
@[simp] theorem stepPlace_derr (s : State) : (stepPlace s).derr = s.derr := rfl
@[simp] theorem stepPlace_berr (s : State) : (stepPlace s).berr = s.berr := rfl
@[simp] theorem stepPlace_built (s : State) : (stepPlace s).built = s.built := rfl
@[simp] theorem stepPlace_result (s : State) : (stepPlace s).result = s.result := rfl
@[simp] theorem stepPlace_turns (s : State) : (stepPlace s).turns = s.turns := rfl
@[simp] theorem stepPlace_rdata (s : State) : (stepPlace s).rdata = s.rdata := rfl
@[simp] theorem stepPlace_draws (s : State) : (stepPlace s).draws = s.draws := rfl

end Sys2Proof.Machine
end

