-- ==== Sys2Proof/Laws/Ops.lean ====
section
/-! SUPPORT. What the shared operations do, said once each. -/

namespace Sys2Proof.Machine

/-! ## Reading after writing -/

@[simp] theorem nodeAt_setNode_same (s : State) (k : Nat) (n : Node) : nodeAt (setNode s k n) k = n := by
  simp [nodeAt]

@[simp] theorem nodeAt_setNode_other (s : State) (k j : Nat) (n : Node) (h : j ≠ k) :
    nodeAt (setNode s k n) j = nodeAt s j := by
  simp [nodeAt, h]

@[simp] theorem valAt_setVal_same (s : State) (k : Nat) (v : Sym) : valAt (setVal s k v) k = v := by
  simp [valAt]

@[simp] theorem valAt_setVal_other (s : State) (k j : Nat) (v : Sym) (h : j ≠ k) : valAt (setVal s k v) j = valAt s j := by
  simp [valAt, h]

/-- A node is read from `nodes` alone. -/
theorem nodeAt_congr {s t : State} (h : s.nodes = t.nodes) (k : Nat) : nodeAt s k = nodeAt t k := by
  simp [nodeAt, h]

/-- A VAL entry is read from `vals` alone. -/
theorem valAt_congr {s t : State} (h : s.vals = t.vals) (k : Nat) : valAt s k = valAt t k := by
  simp [valAt, h]

/-- The root of the bare tree (R102). -/
@[simp] theorem nodeAt_discard_root (s : State) : nodeAt (discard s) 0 = rootClear := rfl

/-- `root_clear` and `fresh` are childless and unused (R14, R96). -/
@[simp] theorem childless_rootClear : childless rootClear = true := rfl

@[simp] theorem childless_fresh (p : NodeIdx) : childless (fresh p) = true := rfl

@[simp] theorem fresh_parent (p : NodeIdx) : (fresh p).parent = some p := rfl

/-- A childless node has neither child. -/
theorem childless_iff (n : Node) : childless n = true ↔ n.left = none ∧ n.right = none := by
  simp [childless]

/-- The count of an existing bucket is the register's. -/
theorem cntAt_of_lt (s : State) (k : Nat) (h : k < 16) : cntAt s k = s.cnt[k] := by
  simp [cntAt, h]

/-! ## Raising and leaving an error -/

/-- A build error is latched, ends the build and leaves the tables, DERR, BUILT, RESULT and the model's own fields alone (R138, R95). -/
theorem raise_build (e : BuildError) (s : State) :
    (raise (.build e) s).berr = some e ∧ (raise (.build e) s).phase = .idle ∧ (raise (.build e) s).derr = s.derr ∧
      (raise (.build e) s).built = s.built ∧ (raise (.build e) s).result = s.result ∧ (raise (.build e) s).nlen = s.nlen ∧
      (raise (.build e) s).len = s.len ∧ (raise (.build e) s).nval = s.nval ∧ (raise (.build e) s).vals = s.vals ∧
      (raise (.build e) s).turns = s.turns ∧ (raise (.build e) s).rdata = s.rdata ∧ (raise (.build e) s).draws = s.draws := by
  cases e <;> exact ⟨rfl, rfl, rfl, rfl, rfl, rfl, rfl, rfl, rfl, rfl, rfl, rfl⟩

/-- The failure sequence (R95) is the discard with the code latched and the build over. -/
theorem raise_walk_failure (e : BuildError) (h : e ≠ .tableTooLarge) (s : State) :
    raise (.build e) s = { discard s with berr := some e, phase := .idle } := by
  cases e with
  | tableTooLarge => exact absurd rfl h
  | tooFewValues => rfl
  | infeasible => rfl

/-- The reset input keeps VAL and the model's own fields (R160). -/
theorem blockReset_kept (s : State) :
    (blockReset s).vals = s.vals ∧ (blockReset s).turns = s.turns ∧ (blockReset s).rdata = s.rdata ∧
      (blockReset s).draws = s.draws := ⟨rfl, rfl, rfl, rfl⟩

/-- The power-up state is a fixed point of the reset input. -/
theorem blockReset_reset : blockReset State.reset = State.reset := rfl

/-! ## BUILD start -/

/-- BUILD start has two outcomes (R81 to R83). -/
theorem buildStart_cases (s : State) :
    (16 < s.nlen.toNat ∧ buildStart s = raise (.build .tableTooLarge) (buildClear s)) ∨
      (s.nlen.toNat ≤ 16 ∧ buildStart s = walkInit (buildClear s)) := by
  unfold buildStart
  split
  · next h => exact .inl ⟨h, rfl⟩
  · next h => exact .inr ⟨Nat.le_of_not_lt h, rfl⟩

/-- The working counts of R83, bucket by bucket. -/
@[simp] theorem loadedCounts_getElem (n : BitVec 8) (l : Vector Count 16) (k : Nat) (h : k < 16) :
    (loadedCounts n l)[k] = if k < n.toNat then l[k] else 0 := by
  simp [loadedCounts]

end Sys2Proof.Machine
end

