-- ==== Sys2Proof/Laws/Bus.lean ====
section
/-! SUPPORT. What a host access can do. -/

namespace Sys2Proof.Machine

/-- An access inside the interface is answered by its effect (R42). -/
theorem checkedAccess_legal (off : Nat) (r : Result) (aligned : off % 4 = 0) (inside : off < 524288) :
    checkedAccess off 4 r = r := by
  simp [checkedAccess, aligned, Config.regSpaceBytes, Nat.not_le.2 inside]

/-- An access answered by a next state is an aligned word of the register space, and the answer is its effect. -/
theorem checkedAccess_next {off size : Nat} {r : Result} {t : State} (h : checkedAccess off size r = .next t) :
    size = 4 ∧ off % 4 = 0 ∧ off < 524288 ∧ r = .next t := by
  unfold checkedAccess at h
  split at h
  · cases h
  · next hs =>
    split at h
    · cases h
    · next ha =>
      split at h
      · cases h
      · next ho => exact ⟨by omega, by omega, by simpa [Config.regSpaceBytes] using ho, h⟩

/-- A register write touches the table registers only (R18, R43). -/
theorem writeReg_writes (s : State) (r : Reg) (v : Word) :
    writeReg s r v = { s with nlen := (writeReg s r v).nlen, len := (writeReg s r v).len,
                              nval := (writeReg s r v).nval, vals := (writeReg s r v).vals } := by
  cases r <;> rfl

/-- A host write that carries no command changes nothing while BUSY (R46), else it is a register write. -/
theorem hostWrite_cases (off : Nat) (v : Word) (s : State) :
    (s.phase = .build ∧ hostWrite off v s = s) ∨ (s.phase = .idle ∧ hostWrite off v s = writeReg s (regAt off) v) := by
  cases h : s.phase <;> simp [hostWrite, busy, h]

/-- A write carries a command only when it goes to offset 0 and its word decodes (R41, R61). -/
theorem commandOf_some {off : Nat} {v : Word} {i : Instr} (h : commandOf off v = some i) : off = 0 ∧ decode? v = some i := by
  unfold commandOf at h
  split at h
  · next hr =>
    refine ⟨?_, h⟩
    unfold regAt at hr
    repeat' split at hr
    all_goals first | assumption | cases hr
  · cases h

end Sys2Proof.Machine
end

