-- ==== Sys2Proof/Laws/Decoder.lean ====
section
/-! SUPPORT. What MOVE can do: its four cases. -/

namespace Sys2Proof.Machine

/-- The four cases of MOVE with their conditions (R110). -/
theorem moveStep_cases (b : Bool) (s : State) :
    (s.derr = true ∧ moveStep b s = moveRefused s) ∨
    (s.derr = false ∧ edge (here s) b = none ∧ moveStep b s = raise .invalidCode s) ∨
    (s.derr = false ∧ ∃ k, edge (here s) b = some k ∧
      ((childless (nodeAt s k.toNat) = true ∧ moveStep b s = moveEmit s k) ∨
      (childless (nodeAt s k.toNat) = false ∧ moveStep b s = moveAdvance s k))) := by
  unfold moveStep
  cases h : s.derr
  · cases he : edge (here s) b with
    | none => simp
    | some k => cases hc : childless (nodeAt s k.toNat) <;> simp [hc]
  · simp

/-- MOVE writes nothing but the cursor, DERR, RESULT and the count of drawn cursors (R110). -/
theorem moveStep_writes (b : Bool) (s : State) :
    moveStep b s = { s with cursor := (moveStep b s).cursor, derr := (moveStep b s).derr,
                            result := (moveStep b s).result, draws := (moveStep b s).draws } := by
  obtain ⟨-, h⟩ | ⟨-, -, h⟩ | ⟨-, k, -, ⟨-, h⟩ | ⟨-, h⟩⟩ := moveStep_cases b s <;> rw [h] <;> rfl

end Sys2Proof.Machine
end

