-- ==== Sys2Proof/Laws/Engine.lean ====
section
/-! SUPPORT. What an engine turn can do: one inversion lemma over the dispatch table, one lemma for the way each step ends. -/

namespace Sys2Proof.Machine

/-- An idle engine does nothing (R10). -/
theorem engineTurn_idle (s : State) (h : s.phase = .idle) : engineTurn s = s := by
  simp [engineTurn, busy, h]

/-- A busy engine takes the step the dispatch table names (R84). -/
theorem engineTurn_build (s : State) (h : s.phase = .build) : engineTurn s = engineEffect (engineChoice s) s := by
  simp [engineTurn, busy, h]

/-- The ten cases of the dispatch table with the tests that lead to each (R84). -/
theorem engineChoice_cases (s : State) :
    (s.i.toNat = s.nlen.toNat ∧ engineChoice s = .finish) ∨
    (s.i.toNat ≠ s.nlen.toNat ∧ cntAt s s.i.toNat = 0 ∧ engineChoice s = .skip) ∨
    (s.i.toNat ≠ s.nlen.toNat ∧ cntAt s s.i.toNat ≠ 0 ∧
      ((s.depth.toNat = s.i.toNat + 1 ∧ s.vidx.toNat < s.nval.toNat ∧ engineChoice s = .place) ∨
      (s.depth.toNat = s.i.toNat + 1 ∧ s.nval.toNat ≤ s.vidx.toNat ∧ engineChoice s = .failTooFewValues) ∨
      (s.depth.toNat ≠ s.i.toNat + 1 ∧
        (((here s).left = none ∧ engineChoice s = .dlNew) ∨
        (∃ l, (here s).left = some l ∧
          ((enterable s l = true ∧ engineChoice s = .dlOld) ∨
          (enterable s l = false ∧
            (((here s).right = none ∧ engineChoice s = .drNew) ∨
            (∃ r, (here s).right = some r ∧
              ((enterable s r = true ∧ engineChoice s = .drOld) ∨
              (enterable s r = false ∧
                ((∃ p, (here s).parent = some p ∧ engineChoice s = .ascend) ∨
                ((here s).parent = none ∧ engineChoice s = .failInfeasible))))))))))))) := by
  unfold engineChoice
  by_cases h1 : s.i.toNat = s.nlen.toNat
  · simp [h1]
  by_cases h2 : cntAt s s.i.toNat = 0#17
  · simp [h1, h2]
  by_cases h3 : s.depth.toNat = s.i.toNat + 1
  · by_cases h4 : s.vidx.toNat < s.nval.toNat
    · simp [h1, h2, h3, h4]
    · simp [h1, h2, h3, h4]
      omega
  cases h5 : (here s).left with
  | none => simp [h1, h2, h3]
  | some l =>
    cases h6 : enterable s l
    · cases h7 : (here s).right with
      | none => simp [h1, h2, h3, h6]
      | some r =>
        cases h8 : enterable s r
        · cases h9 : (here s).parent <;> simp [h1, h2, h3, h6, h8]
        · simp [h1, h2, h3, h6, h8]
    · simp [h1, h2, h3, h6]

/-- No step of the engine writes a table register, DERR, RESULT, or what is not the engine's (R46, R51, R95). -/
theorem engineEffect_frame (e : EngineStep) (s : State) :
    (engineEffect e s).nlen = s.nlen ∧ (engineEffect e s).len = s.len ∧ (engineEffect e s).nval = s.nval ∧
      (engineEffect e s).vals = s.vals ∧ (engineEffect e s).derr = s.derr ∧ (engineEffect e s).result = s.result ∧
      (engineEffect e s).turns = s.turns ∧ (engineEffect e s).rdata = s.rdata ∧ (engineEffect e s).draws = s.draws := by
  cases e
  case dlOld => simp only [engineEffect, stepDlOld]; split <;> exact ⟨rfl, rfl, rfl, rfl, rfl, rfl, rfl, rfl, rfl⟩
  case drOld => simp only [engineEffect, stepDrOld]; split <;> exact ⟨rfl, rfl, rfl, rfl, rfl, rfl, rfl, rfl, rfl⟩
  case ascend => simp only [engineEffect, stepAscend]; split <;> exact ⟨rfl, rfl, rfl, rfl, rfl, rfl, rfl, rfl, rfl⟩
  all_goals exact ⟨rfl, rfl, rfl, rfl, rfl, rfl, rfl, rfl, rfl⟩

/-- Only FINISH and the two failures end a build (R85, R95). -/
theorem engineEffect_phase (e : EngineStep) (s : State) :
    (engineEffect e s).phase =
      if e = .finish ∨ e = .failTooFewValues ∨ e = .failInfeasible then .idle else s.phase := by
  cases e
  case dlOld => simp only [engineEffect, stepDlOld]; split <;> simp
  case drOld => simp only [engineEffect, stepDrOld]; split <;> simp
  case ascend => simp only [engineEffect, stepAscend]; split <;> simp
  all_goals rfl

/-- No step of the engine reads the events still to come: it does the same whatever they are (R84). -/
theorem engineEffect_turns (e : EngineStep) (s : State) (ts : List Turn) :
    engineEffect e { s with turns := ts } = { engineEffect e s with turns := ts } := by
  have same : here { s with turns := ts } = here s := rfl
  cases e
  case dlOld => simp only [engineEffect, stepDlOld, same]; split <;> rfl
  case drOld => simp only [engineEffect, stepDrOld, same]; split <;> rfl
  case ascend => simp only [engineEffect, stepAscend, same]; split <;> rfl
  all_goals rfl

/-- BERR is written by the two failures alone, BUILT by FINISH alone (R22, R85, R95). -/
theorem engineEffect_flags (e : EngineStep) (s : State) :
    (engineEffect e s).berr = (match e with
      | .failTooFewValues => some .tooFewValues
      | .failInfeasible => some .infeasible
      | _ => s.berr) ∧
    (engineEffect e s).built = if e = .finish then true else s.built := by
  cases e
  case dlOld => simp only [engineEffect, stepDlOld]; split <;> simp [descend]
  case drOld => simp only [engineEffect, stepDrOld]; split <;> simp [descend]
  case ascend => simp only [engineEffect, stepAscend]; split <;> simp
  all_goals simp [engineEffect, stepFinish, stepSkip, stepPlace, stepDlNew, stepDrNew, createChild, setNode, raise, discard]

/-- Turns of the engine add up. -/
theorem engineTurns_add (m n : Nat) (s : State) : engineTurns (m + n) s = engineTurns n (engineTurns m s) := by
  induction m generalizing s with
  | zero => simp [engineTurns]
  | succ m ih => rw [Nat.succ_add]; exact ih _

/-- An idle block stays idle under engine turns. -/
theorem engineTurns_idle (n : Nat) (s : State) (h : s.phase = .idle) : engineTurns n s = s := by
  induction n with
  | zero => rfl
  | succ n ih => simp only [engineTurns, engineTurn_idle s h, ih]

end Sys2Proof.Machine
end

