-- ==== Sys2Proof/Laws/PerInstr.lean ====
section
/-! SUPPORT. Statements made for each command. -/

/-- Family EncodeReserved: the encoding of every command keeps the reserved bits of R60 ([31:8] and [3:1]) at 0 and its operation is 1, 2
or 3. -/
def Sys2Proof.Laws.EncodeReserved.Statement (i : Sys2Proof.Instr) : Prop :=
  Sys2Proof.encode i &&& 0xFFFFFF0E#32 = 0 ∧ (Sys2Proof.encode i).extractLsb' 4 4 ≠ 0 ∧
    (Sys2Proof.encode i).extractLsb' 4 4 < 4

theorem Sys2Proof.Laws.EncodeReserved.build : Sys2Proof.Laws.EncodeReserved.Statement .build := by
  unfold Sys2Proof.Laws.EncodeReserved.Statement; decide

theorem Sys2Proof.Laws.EncodeReserved.move (b : Bool) : Sys2Proof.Laws.EncodeReserved.Statement (.move b) := by
  unfold Sys2Proof.Laws.EncodeReserved.Statement; cases b <;> decide

theorem Sys2Proof.Laws.EncodeReserved.restart : Sys2Proof.Laws.EncodeReserved.Statement .restart := by
  unfold Sys2Proof.Laws.EncodeReserved.Statement; decide
end

