-- ==== Sys2Proof/Laws/Step.lean ====
section
/-! SUPPORT. What one step can do: the inversion lemma every claim about a step goes through. -/

namespace Sys2Proof.Machine

/-- The command arms answer a next state always: unchanged while BUSY (R46), their effect while IDLE. -/
theorem exec_idle (i : Instr) (s : State) (h : s.phase = .idle) :
    exec i s = .next (match i with
      | .build => buildStart s
      | .move b => moveStep b s
      | .restart => clearDecoder s) := by
  cases i <;> simp [exec, execBuild, execMove, execRestart, busy, h]

/-- If a step answers a next state, it was one of these (R6). -/
theorem step_cases {s t : State} (h : step s = .next t) :
    (s.turns = [] ∧ t = engineTurn s) ∨
    (∃ ts, s.turns = .engine :: ts ∧ t = engineTurn { s with turns := ts }) ∨
    (∃ ts, s.turns = .reset :: ts ∧ t = blockReset { s with turns := ts }) ∨
    (∃ off ts, s.turns = .read off 4 :: ts ∧ off % 4 = 0 ∧ off < 524288 ∧ t = hostRead off { s with turns := ts }) ∨
    (∃ off v ts, s.turns = .write off 4 v :: ts ∧ off % 4 = 0 ∧ off < 524288 ∧
      ((∃ i, commandOf off v = some i ∧ exec i { s with turns := ts } = .next t) ∨
      (commandOf off v = none ∧ t = hostWrite off v { s with turns := ts }))) := by
  unfold step at h
  split at h
  · next e => exact .inl ⟨e, by cases h; rfl⟩
  · next ts e => exact .inr (.inl ⟨ts, e, by cases h; rfl⟩)
  · next ts e => exact .inr (.inr (.inl ⟨ts, e, by cases h; rfl⟩))
  · next off size ts e =>
    obtain ⟨rfl, ha, ho, hr⟩ := checkedAccess_next h
    exact .inr (.inr (.inr (.inl ⟨off, ts, e, ha, ho, by cases hr; rfl⟩)))
  · next off size v ts e =>
    obtain ⟨rfl, ha, ho, hr⟩ := checkedAccess_next h
    refine .inr (.inr (.inr (.inr ⟨off, v, ts, e, ha, ho, ?_⟩)))
    unfold writeAccess at hr
    split at hr
    · next i hc => exact .inl ⟨i, hc, hr⟩
    · next hc => exact .inr ⟨hc, by cases hr; rfl⟩

end Sys2Proof.Machine
end

