-- ==== Sys2Proof/Machine/Script.lean ====
section
/-! DEFINITION. The script notation of 30_encoding.md rule R69: each line as the host access it stands for, each pseudo-command as its expansion. -/

namespace Sys2Proof.Machine

/-- `WR addr, v` -/
def scriptWr (off : Nat) (v : Word) : Turn := .write off 4 v

/-- `RD addr` -/
def scriptRd (off : Nat) : Turn := .read off 4

/-- `NLEN n` -/
def scriptNlen (n : Nat) : Turn := scriptWr 0x0000C (BitVec.ofNat 32 n)

/-- `NVAL n` -/
def scriptNval (n : Nat) : Turn := scriptWr 0x00010 (BitVec.ofNat 32 n)

/-- `LEN k, n` -/
def scriptLen (k n : Nat) : Turn := scriptWr (0x00040 + 4 * k) (BitVec.ofNat 32 n)

/-- `VAL k, v` -/
def scriptVal (k v : Nat) : Turn := scriptWr (0x40000 + 4 * k) (BitVec.ofNat 32 v)

/-- `BUILD`, `MOVE b`, `RESTART` -/
def scriptCommand (i : Instr) : Turn := scriptWr 0x00000 (encode i)

/-- `STATUS` -/
def scriptStatus : Turn := scriptRd 0x00004

/-- `RESULT` -/
def scriptResult : Turn := scriptRd 0x00008

/-- `TABLE [n0, ...], [v0, ...]`: the writes in the order R69 gives. -/
def scriptTable (counts values : List Nat) : List Turn :=
  [scriptNlen counts.length] ++ (counts.take 16).mapIdx scriptLen ++ [scriptNval values.length] ++ values.mapIdx scriptVal

/-- `WAIT` that ends at its `polls`-th STATUS read, the engine having taken `gap` turns before each (R69, R170). -/
def scriptWait (polls gap : Nat) : List Turn :=
  (List.replicate polls (List.replicate gap Turn.engine ++ [scriptStatus])).flatten

/-- `BUILDW` -/
def scriptBuildW (polls gap : Nat) : List Turn := scriptCommand .build :: scriptWait polls gap

/-- `BITS "b0b1..."`, each MOVE followed by a RESULT read. -/
def scriptBits (bits : List Bool) : List Turn := bits.flatMap fun b => [scriptCommand (.move b), scriptResult]

end Sys2Proof.Machine
end

