-- ==== Sys2Proof/Tests/Slice0.lean ====
section
/-! SUPPORT. The model's own tests: expected results from 95_test_vectors.md and from the rules by hand, and a witness for the hypotheses of every statement. -/

namespace Sys2Proof.Tests

open Sys2Proof Sys2Proof.Machine

/-! ## Small states -/

/-- A node written as in 95_test_vectors.md: left, right, parent, value, used, visited. -/
def nd (l r p : Option NodeIdx) (v : Sym) (u : Bool) (vis : Pass) : Node := ⟨l, r, p, v, u, vis⟩

/-- Sixteen counts from a short list. -/
def vec (l : List Nat) : Vector Count 16 := Vector.ofFn fun k => BitVec.ofNat 17 (l.getD k.val 0)

/-- Indices 0, 1, 2, ... beside the nodes. -/
def numbered (l : List Node) : List (Nat × Node) := l.mapIdx fun k n => (k, n)

/-- The reset state with its tables written. -/
def withTables (lens : List Nat) (vals : List Sym) : State :=
  { State.reset with nlen := BitVec.ofNat 8 lens.length, len := vec lens, nval := BitVec.ofNat 17 vals.length,
                     vals := vals.mapIdx fun k v => (k, v) }

/-- A walk in progress. -/
def walk (lens : List Nat) (vals : List Sym) (cnts : List Nat) (nodes : List Node) (cursor : NodeIdx) (i depth : BitVec 5)
    (order : Pass) (vidx : BitVec 17) : State :=
  { withTables lens vals with
    nodes := numbered nodes, alloc := BitVec.ofNat 17 nodes.length, cursor := cursor, phase := .build, i := i, depth := depth,
    order := order, vidx := vidx, cnt := vec cnts }

/-- The tree of 95_test_vectors.md 1.2 built, cursor at the root. -/
def built02 : State :=
  { withTables [0, 2] [10, 20] with
    nodes := numbered [nd (some 1) none none 0 false 0, nd (some 2) (some 3) (some 0) 0 false 0,
      nd none none (some 1) 10 true 0, nd none none (some 1) 20 true 0],
    alloc := 4, i := 2, order := 3, vidx := 2, built := true }

/-- 1.2 before step 1. -/
def atSkip : State := walk [0, 2] [10, 20] [0, 2] [nd none none none 0 false 0] 0 0 0 1 0

/-- 1.2 before step 2. -/
def atDlNew : State := walk [0, 2] [10, 20] [0, 2] [nd none none none 0 false 0] 0 1 0 1 0

/-- 1.2 before step 4. -/
def atPlace : State :=
  walk [0, 2] [10, 20] [0, 2]
    [nd (some 1) none none 0 false 0, nd (some 2) none (some 0) 0 false 0, nd none none (some 1) 0 false 0] 2 1 2 1 0

/-- 1.2 before step 5. -/
def atDlOld : State :=
  walk [0, 2] [10, 20] [0, 1]
    [nd (some 1) none none 0 false 0, nd (some 2) none (some 0) 0 false 0, nd none none (some 1) 10 true 0] 0 1 0 2 1

/-- 1.2 before step 6. -/
def atDrNew : State :=
  walk [0, 2] [10, 20] [0, 1]
    [nd (some 1) none none 0 false 0, nd (some 2) none (some 0) 0 false 0, nd none none (some 1) 10 true 0] 1 1 1 2 1

/-- 1.2 before step 9. -/
def atFinish : State :=
  walk [0, 2] [10, 20] []
    [nd (some 1) none none 0 false 0, nd (some 2) (some 3) (some 0) 0 false 0,
      nd none none (some 1) 10 true 0, nd none none (some 1) 20 true 0] 0 2 0 3 2

/-- 1.4 before step 7. -/
def atTooFew : State :=
  walk [0, 2] [10] [0, 1]
    [nd (some 1) none none 0 false 0, nd (some 2) (some 3) (some 0) 0 false 0,
      nd none none (some 1) 10 true 0, nd none none (some 1) 0 false 0] 3 1 2 2 1

/-- 2.1 before step 8. -/
def atDrOld : State :=
  walk [1, 1, 1] [5, 6, 7] [0, 0, 1]
    [nd (some 1) (some 2) none 0 false 0, nd none none (some 0) 5 true 0,
      nd (some 3) none (some 0) 0 false 0, nd none none (some 2) 6 true 0] 0 2 0 3 2

/-- 2.2 before step 9. -/
def atAscend : State :=
  walk [0, 3] [1, 2, 3] [0, 1]
    [nd (some 1) none none 0 false 0, nd (some 2) (some 3) (some 0) 0 false 0,
      nd none none (some 1) 1 true 0, nd none none (some 1) 2 true 0] 1 1 1 3 2

/-- 1.1 before step 6. -/
def atInfeasible : State :=
  walk [2, 1] [1, 2, 3] [0, 1]
    [nd (some 1) (some 2) none 0 false 0, nd none none (some 0) 1 true 0, nd none none (some 0) 2 true 0] 0 1 0 3 2

/-- The block with one event pending. -/
def pending (s : State) (e : Turn) : State := { s with turns := [e] }

/-- A property of the next state. -/
def answers (r : Machine.Result) (p : State → Bool) : Bool :=
  match r with
  | .next t => p t
  | .fault _ => false
  | .refused _ => false

/-! ## Well-formedness: an ill-formed term for each check of R60 -/

theorem smoke_zeroHi : (CommandFields.wf ⟨1, 2, 0, false⟩) = false := by decide
theorem smoke_zeroLo : (CommandFields.wf ⟨0, 2, 1, false⟩) = false := by decide
theorem smoke_op_zero : (CommandFields.wf ⟨0, 0, 0, false⟩) = false := by decide
theorem smoke_op_four : (CommandFields.wf ⟨0, 4, 0, false⟩) = false := by decide
theorem smoke_bit_build : (CommandFields.wf ⟨0, 1, 0, true⟩) = false := by decide
theorem smoke_bit_restart : (CommandFields.wf ⟨0, 3, 0, true⟩) = false := by decide
theorem smoke_wf_all : Instr.build.wf && (Instr.move false).wf && (Instr.move true).wf && Instr.restart.wf = true := by decide

/-! ## Decoding: words written out from R60 and R61; rejections by name (R62) -/

theorem test_decode_build : decode 0b000000000000000000000000_0001_000_0#32 = .ok .build := by rfl
theorem test_decode_move0 : decode 0b000000000000000000000000_0010_000_0#32 = .ok (.move false) := by rfl
theorem test_decode_move1 : decode 0b000000000000000000000000_0010_000_1#32 = .ok (.move true) := by rfl
theorem test_decode_restart : decode 0b000000000000000000000000_0011_000_0#32 = .ok .restart := by rfl
theorem test_decode_zero : decode 0x00000000#32 = .error .operation := by rfl
theorem test_decode_build_bit : decode 0x00000011#32 = .error .operandBit := by rfl
theorem test_decode_restart_bit : decode 0x00000031#32 = .error .operandBit := by rfl
theorem test_decode_low : decode 0x00000022#32 = .error .lowBits := by rfl
theorem test_decode_high : decode 0x00000121#32 = .error .highBits := by rfl
theorem test_decode_op15 : decode 0x000000F0#32 = .error .operation := by rfl
theorem test_encode : encode .build = 0x10 ∧ encode (.move false) = 0x20 ∧ encode (.move true) = 0x21 ∧ encode .restart = 0x30 := by
  decide
theorem test_table_rows : decodeTableWord 32 0x10 = some .build ∧ decodeTableWord 32 0x21 = some (.move true) ∧
    decodeTableWord 32 0x30 = some .restart ∧ decodeTableWord 8 0x20 = some (.move false) ∧
    decodeTableWord 64 0x100000010 = none := by decide

/-! ## The node word: the words of 95_test_vectors.md 1.2 and 2.2 -/

theorem test_word_inner : nodeToWord (nd (some 2) (some 3) (some 0) 0 false 0) = 0x000000200008000E0002#80 := by decide
theorem test_word_leaf : nodeToWord (nd none none (some 1) 20 true 0) = 0x00004520001000000000#80 := by decide
theorem test_word_stamped : nodeToWord (nd (some 2) (some 3) (some 0) 0 false 3) = 0x000180200008000E0002#80 := by decide
theorem test_word_back : nodeOfWord 0x000180200008000E0002#80 = nd (some 2) (some 3) (some 0) 0 false 3 := by decide

/-! ## Commands: what step runs after reset, and the vectors of 2.8 -/

theorem test_fetch_build : answers (step (State.reset.withFetchWord 32 0x10)) (fun t => t.phase == .build && t.order == 1) = true := by
  decide
theorem test_fetch_move : answers (step (State.reset.withFetchWord 32 0x20)) (fun t => resultWord t.result == 0x200 &&
    statusWord t == 0x02) = true := by decide
theorem test_fetch_restart : answers (step (State.reset.withFetchWord 32 0x30)) (fun t => t == State.reset) = true := by decide

/-- 2.5: NLEN 17 fails at once with BERR = 1. -/
theorem test_build_too_large :
    answers (exec .build { built02 with nlen := 17, cursor := 1 }) (fun t => statusWord t == 0x04 && t.alloc == 1 && t.cursor == 0) =
      true := by decide
/-- P7: counts at and above NLEN are not loaded. -/
theorem test_build_stale_len :
    answers (exec .build { built02 with nlen := 1, len := vec [1, 5], derr := true })
      (fun t => t.cnt == vec [1] && statusWord t == 0x01 && t.nodes == [(0, rootClear)]) = true := by decide
theorem test_move_advance : answers (exec (.move false) built02) (fun t => t.cursor == 1 && resultWord t.result == 0x000) = true := by
  decide
theorem test_move_emit :
    answers (exec (.move true) { built02 with cursor := 1 }) (fun t => t.cursor == 0 && resultWord t.result == 0x114) = true := by decide
theorem test_move_absent :
    answers (exec (.move true) built02) (fun t => statusWord t == 0x12 && resultWord t.result == 0x200) = true := by decide
theorem test_move_refused :
    answers (exec (.move false) { built02 with derr := true }) (fun t => statusWord t == 0x12 && resultWord t.result == 0x200) =
      true := by decide
theorem test_restart :
    answers (exec .restart { built02 with cursor := 1, derr := true, result := invalidResult })
      (fun t => t.cursor == 0 && statusWord t == 0x10 && resultWord t.result == 0) = true := by decide
theorem test_move_while_busy : answers (exec (.move false) atDlOld) (fun t => t == atDlOld) = true := by decide

/-! ## The engine: one row of a trace for each of the ten steps -/

theorem test_skip : engineTurn atSkip = atDlNew := by decide
theorem test_dlNew : nodeAt (engineTurn atDlNew) 0 = nd (some 1) none none 0 false 0 ∧
    nodeAt (engineTurn atDlNew) 1 = nd none none (some 0) 0 false 0 ∧ (engineTurn atDlNew).alloc = 2 ∧
    (engineTurn atDlNew).cursor = 1 ∧ (engineTurn atDlNew).depth = 1 := by decide
theorem test_place : engineTurn atPlace = atDlOld := by decide
theorem test_dlOld : engineTurn atDlOld = atDrNew := by decide
theorem test_drNew : nodeAt (engineTurn atDrNew) 1 = nd (some 2) (some 3) (some 0) 0 false 0 ∧
    nodeAt (engineTurn atDrNew) 3 = nd none none (some 1) 0 false 0 ∧ (engineTurn atDrNew).alloc = 4 ∧
    (engineTurn atDrNew).cursor = 3 ∧ (engineTurn atDrNew).depth = 2 := by decide
theorem test_finish : statusWord (engineTurn atFinish) = 0x10 ∧ (engineTurn atFinish).alloc = 4 := by decide
theorem test_tooFew : statusWord (engineTurn atTooFew) = 0x08 ∧ (engineTurn atTooFew).alloc = 1 ∧ (engineTurn atTooFew).cursor = 0 := by
  decide
theorem test_drOld : (engineTurn atDrOld).cursor = 2 ∧ (engineTurn atDrOld).depth = 1 ∧ (engineTurn atDrOld).nodes = atDrOld.nodes := by
  decide
theorem test_ascend : nodeAt (engineTurn atAscend) 1 = nd (some 2) (some 3) (some 0) 0 false 3 ∧ (engineTurn atAscend).cursor = 0 ∧
    (engineTurn atAscend).depth = 0 := by decide
theorem test_infeasible : statusWord (engineTurn atInfeasible) = 0x0C ∧ (engineTurn atInfeasible).alloc = 1 := by decide

/-! ## Host accesses: the vectors of 2.10 -/

theorem test_write_nlen : answers (step (pending built02 (.write 0x0000C 4 0x00000111))) (fun t => readReg t .nlen == 0x11) = true := by
  decide
theorem test_write_nval : answers (step (pending built02 (.write 0x00010 4 0x00030000))) (fun t => readReg t .nval == 0x10000) = true := by
  decide
theorem test_write_len : answers (step (pending built02 (.write 0x00044 4 0xFFFFFFFF)))
    (fun t => readReg t (.len 1) == 0x0001FFFF && readReg t (.len 0) == 0) = true := by decide
theorem test_write_val : answers (step (pending built02 (.write 0x40004 4 0x00000314)))
    (fun t => readReg t (.val 1) == 0x14 && readReg t (.val 0) == 10 && t.nodes == built02.nodes) = true := by decide
theorem test_write_busy : answers (step (pending atDlOld (.write 0x0000C 4 5))) (fun t => t == atDlOld) = true := by decide
theorem test_read_status_busy : answers (step (pending atDlOld (.read 0x00004 4))) (fun t => t.rdata == 0x01) = true := by decide
/-- 1.2, after `MOVE 0`, `MOVE 1` (RESULT 0x114): a read of RESULT, which does not clear it (R21). -/
theorem test_read_result_idle : answers (step (pending { built02 with result := ⟨false, true, 20⟩ } (.read 0x00008 4)))
    (fun t => t.rdata == 0x114 && t.result == ⟨false, true, 20⟩) = true := by decide
theorem test_read_unmapped : answers (step (pending built02 (.read 0x3FFFC 4))) (fun t => t.rdata == 0) = true := by decide
theorem test_write_reserved : answers (step (pending { built02 with cursor := 1 } (.write 0x00000 4 0x121)))
    (fun t => t == { built02 with cursor := 1 }) = true := by decide
theorem test_reset_input : answers (step (pending atDlOld .reset)) (fun t => t == { State.reset with vals := atDlOld.vals }) = true := by
  decide
/-- An entry nothing has written holds a byte of which nothing is known (U8). -/
theorem test_unwritten_val : valAt State.reset 65535 = Config.powerUpVal 65535 := by rfl
/-- P3, line 11: the writes of `TABLE [1], [0x41]` in order. -/
theorem test_script_table : scriptTable [1] [0x41] =
    [.write 0x0000C 4 1, .write 0x00040 4 1, .write 0x00010 4 1, .write 0x40000 4 0x41] := by decide
/-- R69: `BITS "01"`. -/
theorem test_script_bits : scriptBits [false, true] =
    [.write 0x00000 4 0x20, .read 0x00008 4, .write 0x00000 4 0x21, .read 0x00008 4] := by decide

/-! ## The parameters keep their lower bounds (R5) -/

theorem test_parameter_bounds : 2 ^ (Config.maxLen + 1) - 1 ≤ Config.nodeCap ∧ Config.nodeCap ≤ 2 ^ 17 ∧
    2 ^ Config.maxLen ≤ Config.valCap ∧ 2 ^ Config.maxLen + 1 < 2 ^ 17 ∧ 3 * 17 + 3 + 8 + 1 + 17 = 80 := by decide

/-! ## Closed forms on the tables of 2.1, 2.3 and 2.4 -/

theorem test_codes : canonicalCodes (lengthSequence (withTables [0, 3, 2] [1, 2, 3, 4, 5])) = [(2, 0), (2, 1), (2, 2), (3, 6), (3, 7)] := by
  decide
theorem test_code_bits : codeBits (3, 6) = [true, true, false] := by decide
theorem test_outcomes : buildOutcome (withTables [3] [1, 2]) = some .infeasible ∧ buildOutcome (withTables [3] [1]) = some .tooFewValues ∧
    buildOutcome (withTables [1, 3] [1, 2]) = some .tooFewValues ∧ buildOutcome (withTables [1, 3] [1, 2, 3]) = some .infeasible ∧
    buildOutcome (withTables [0, 4] [1, 2, 3, 4]) = none := by decide

/-! ## Witnesses: states and operands that meet the hypotheses of each statement -/

theorem inv_built02 : Inv built02 := ⟨by decide, by decide, by decide, by decide, by decide⟩
theorem inv_atSkip : Inv atSkip := ⟨by decide, by decide, by decide, by decide, by decide⟩
theorem inv_atDlNew : Inv atDlNew := ⟨by decide, by decide, by decide, by decide, by decide⟩
theorem inv_atPlace : Inv atPlace := ⟨by decide, by decide, by decide, by decide, by decide⟩
theorem inv_atDlOld : Inv atDlOld := ⟨by decide, by decide, by decide, by decide, by decide⟩
theorem inv_atDrNew : Inv atDrNew := ⟨by decide, by decide, by decide, by decide, by decide⟩
theorem inv_atFinish : Inv atFinish := ⟨by decide, by decide, by decide, by decide, by decide⟩
theorem inv_atTooFew : Inv atTooFew := ⟨by decide, by decide, by decide, by decide, by decide⟩
theorem inv_atDrOld : Inv atDrOld := ⟨by decide, by decide, by decide, by decide, by decide⟩
theorem inv_atAscend : Inv atAscend := ⟨by decide, by decide, by decide, by decide, by decide⟩
theorem inv_atInfeasible : Inv atInfeasible := ⟨by decide, by decide, by decide, by decide, by decide⟩

theorem choices : engineChoice atSkip = .skip ∧ engineChoice atDlNew = .dlNew ∧ engineChoice atPlace = .place ∧
    engineChoice atDlOld = .dlOld ∧ engineChoice atDrNew = .drNew ∧ engineChoice atFinish = .finish ∧
    engineChoice atTooFew = .failTooFewValues ∧ engineChoice atDrOld = .drOld ∧ engineChoice atAscend = .ascend ∧
    engineChoice atInfeasible = .failInfeasible := by decide

theorem witness_DecodeAndEncodeAgree : (Instr.move true).wf = true ∧ decode? 0x21#32 = some (.move true) := by decide
theorem witness_StepRunsTheDecodedCommand : decode? 0x21#32 = some (.move true) ∧
    (pending built02 (.write 0x00000 4 0x21)).turns = .write 0x00000 4 0x21 :: [] := by decide
theorem witness_ReservedWordChangesNothing : 0x22#32 ≠ 0x10#32 ∧ 0x22#32 ≠ 0x20#32 ∧ 0x22#32 ≠ 0x21#32 ∧ 0x22#32 ≠ 0x30#32 ∧
    (pending built02 (.write 0x00000 4 0x22)).turns = .write 0x00000 4 0x22 :: [] := by decide
theorem witness_BusyBlockIgnoresWritesAndServesReads : atDlOld.phase = .build ∧ legalAccess 0x7FFFC 4 = true ∧
    (pending atDlOld (.write 0x7FFFC 4 1)).turns = .write 0x7FFFC 4 1 :: [] ∧ (pending atDlOld (.write 0x7FFFC 4 1)).phase = .build ∧
    (pending atDlOld (.read 0x7FFFC 4)).turns = .read 0x7FFFC 4 :: [] ∧ (pending atDlOld (.read 0x7FFFC 4)).phase = .build := by decide
theorem witness_BusyReadsUnderTheInvariant : Inv atDlOld ∧ atDlOld.phase = .build := ⟨inv_atDlOld, rfl⟩
theorem witness_RegisterMap : regAt 0x0007C = .len 15 ∧ regAt 0x7FFFC = .val 65535 ∧ regAt 0x00014 = .unmapped ∧
    regAt 0x0003C = .unmapped ∧ regAt 0x00080 = .unmapped ∧ regAt 0x3FFFC = .unmapped := by decide
theorem witness_TableWritesStoreAndReadBack : built02.phase = .idle ∧
    (pending built02 (.write 0x0000C 4 0)).turns = .write 0x0000C 4 0 :: [] ∧
    (pending built02 (.write 0x00010 4 0)).turns = .write 0x00010 4 0 :: [] ∧
    (pending built02 (.write 0x0007C 4 0)).turns = .write (0x00040 + 4 * (15 : Fin 16).val) 4 0 :: [] ∧
    (pending built02 (.write 0x7FFFC 4 0)).turns = .write (0x40000 + 4 * 65535) 4 0 :: [] := by decide
theorem witness_OddAccessesAreHarmless : legalAccess 0x00004 4 = true ∧ regAt 0x00004 = .status ∧ legalAccess 0x00008 4 = true ∧
    regAt 0x00008 = .result ∧ legalAccess 0x3FFFC 4 = true ∧ regAt 0x3FFFC = .unmapped ∧ regAt 0x0000C = .nlen ∧
    (0x1FF#32 &&& 0xFF#32 = 0x2FF#32 &&& 0xFF#32) := by decide
theorem witness_ReadsOnBothPhases : legalAccess 0x7FFFC 4 = true ∧ built02.phase = .idle ∧
    (pending built02 (.read 0x7FFFC 4)).turns = .read 0x7FFFC 4 :: [] ∧ atDlOld.phase = .build ∧
    (pending atDlOld (.read 0x00000 4)).turns = .read 0x00000 4 :: [] := by decide
theorem witness_DispatchTakesTheFirstTestThatHolds : atDlOld.phase = .build ∧ atDlOld.turns = [] ∧
    (pending atDlOld .engine).phase = .build ∧ (pending atDlOld .engine).turns = .engine :: [] := by decide
theorem witness_AccessesThatDoNotExistStop : (pending built02 (.read 0x00004 2)).turns = .read 0x00004 2 :: [] ∧ (2 : Nat) ≠ 4 ∧
    0x00002 % 4 ≠ 0 ∧ 0x80000 % 4 = 0 ∧ 524288 ≤ 0x80000 := by decide
theorem witness_IdleBlockStaysAsItIs : built02.phase = .idle ∧ built02.turns = [] ∧
    (pending built02 .engine).phase = .idle ∧ (pending built02 .engine).turns = .engine :: [] := by decide
theorem witness_BuildStartsTheWalk : { State.reset with nlen := 16 }.phase = .idle ∧ { State.reset with nlen := 16 }.nlen.toNat ≤ 16 := by
  decide
theorem witness_BuildRejectsTooLargeTable : { State.reset with nlen := 17 }.phase = .idle ∧
    16 < { State.reset with nlen := 17 }.nlen.toNat := by decide
theorem witness_BuildFrame : exec .build built02 = .next (buildStart built02) ∧ built02.phase = .idle := ⟨rfl, rfl⟩
theorem witness_EngineFinishes : atFinish.phase = .build ∧ atFinish.turns = [] ∧ atFinish.i.toNat = atFinish.nlen.toNat := by decide
theorem witness_EngineSkipsAnEmptyBucket : atSkip.phase = .build ∧ atSkip.turns = [] ∧
    atSkip.i.toNat < atSkip.nlen.toNat ∧ cntAt atSkip atSkip.i.toNat = 0 := by decide
theorem witness_EnginePlacesTheNextValue : atPlace.phase = .build ∧ atPlace.turns = [] ∧ atPlace.i.toNat < atPlace.nlen.toNat ∧
    0 < (cntAt atPlace atPlace.i.toNat).toNat ∧ atPlace.depth.toNat = atPlace.i.toNat + 1 ∧
    atPlace.vidx.toNat < atPlace.nval.toNat := by decide
theorem witness_EngineFailures : atTooFew.phase = .build ∧ atTooFew.turns = [] ∧ engineChoice atTooFew = .failTooFewValues ∧
    atInfeasible.phase = .build ∧ atInfeasible.turns = [] ∧ engineChoice atInfeasible = .failInfeasible := by decide
theorem witness_EngineCreatesAChild : atDlNew.phase = .build ∧ atDlNew.turns = [] ∧ atDlNew.cursor.toNat < atDlNew.alloc.toNat ∧
    engineChoice atDlNew = .dlNew ∧ atDrNew.phase = .build ∧ atDrNew.turns = [] ∧ atDrNew.cursor.toNat < atDrNew.alloc.toNat ∧
    engineChoice atDrNew = .drNew := by decide
theorem witness_EngineDescends : atDlOld.phase = .build ∧ atDlOld.turns = [] ∧ engineChoice atDlOld = .dlOld ∧
    atDrOld.phase = .build ∧ atDrOld.turns = [] ∧ engineChoice atDrOld = .drOld := by decide
theorem witness_EngineAscends : atAscend.phase = .build ∧ atAscend.turns = [] ∧ engineChoice atAscend = .ascend := by decide
theorem witness_EngineFrame : atDlOld.turns = [] ∧ step atDlOld = .next (engineTurn atDlOld) := ⟨rfl, rfl⟩
theorem witness_MoveIsRefusedWhileDerr : { built02 with derr := true }.phase = .idle ∧ { built02 with derr := true }.derr = true := by
  decide
theorem witness_MoveOnAbsentEdgeRaisesInvalidCode : built02.phase = .idle ∧ built02.derr = false ∧
    (nodeAt built02 built02.cursor.toNat).right = none := by decide
theorem witness_MoveAdvancesToAnInternalChild : built02.phase = .idle ∧ built02.derr = false ∧
    (nodeAt built02 built02.cursor.toNat).left = some 1 ∧ (nodeAt built02 1).left ≠ none := by decide
theorem witness_MoveEmitsTheLeafSymbol : (nodeAt { built02 with cursor := 1 } 1).right = some 3 ∧ (nodeAt built02 3).left = none ∧
    (nodeAt built02 3).right = none := by decide
theorem witness_CommandsAreExactlyFourWords : atDlOld.phase = .build := rfl
theorem witness_NodeWordLayout : (0x1FFFF#80).getLsbD 17 = false ∧ (0#80).getLsbD 35 = false ∧ (0#80).getLsbD 53 = false := by decide
theorem witness_InvalidCodeHasTwoCauses : built02.phase = .idle := rfl
theorem witness_LostCursorIsNeverObserved : { built02 with derr := true }.phase = .idle ∧ { built02 with derr := true }.derr = true ∧
    answers (step (pending { built02 with derr := true } (.write 0x00000 4 0x30))) (fun t => t.derr == false) = true ∧
    answers (step (pending { built02 with derr := true } (.write 0x00000 4 0x20))) (fun t => t.derr) = true := by decide
theorem witness_MoveAndRestartFrame : exec .restart built02 = .next (clearDecoder built02) ∧
    exec (.move false) built02 = .next (moveStep false built02) := ⟨rfl, rfl⟩
theorem bare_root_inv : Inv { withTables [2] [7] with berr := some .tableTooLarge } :=
  ⟨by decide, by decide, by decide, by decide, by decide⟩
theorem witness_MoveWithoutATreeRaisesInvalidCode : Inv { withTables [2] [7] with berr := some .tableTooLarge } ∧
    { withTables [2] [7] with berr := some .tableTooLarge }.phase = .idle ∧
    { withTables [2] [7] with berr := some .tableTooLarge }.built = false := ⟨bare_root_inv, rfl, rfl⟩
/-- Built from a table with no code (2.5, `NLEN 0`): BUILT is 1 and the tree is the bare root (R121's third case). -/
def builtEmpty : State := { State.reset with order := 1, built := true }
theorem inv_builtEmpty : Inv builtEmpty := ⟨by decide, by decide, by decide, by decide, by decide⟩
theorem witness_MoveOnTheBareRootOfABuild : Inv builtEmpty ∧ builtEmpty.phase = .idle ∧ builtEmpty.built = true ∧
    builtEmpty.nodes = [(0, rootClear)] := ⟨inv_builtEmpty, rfl, rfl, rfl⟩
theorem witness_BuildOfNoCodesLeavesTheBareRoot : (withTables [0, 0] [7]).phase = .idle ∧ (withTables [0, 0] [7]).nlen.toNat ≤ 16 ∧
    (∀ k : Fin 16, k.val < (withTables [0, 0] [7]).nlen.toNat → (withTables [0, 0] [7]).len[k] = 0) ∧
    ∀ k : Fin 16, k.val < { State.reset with nlen := 16 }.nlen.toNat → { State.reset with nlen := 16 }.len[k] = 0 := by decide
theorem witness_DecodeErrorIsSticky : { built02 with derr := true, result := ⟨true, false, 0⟩ }.phase = .idle ∧
    { built02 with derr := true, result := ⟨true, false, 0⟩ }.derr = true := by decide
theorem witness_SixteenBitsGiveASymbolOrAnError : Inv built02 ∧ built02.phase = .idle ∧ built02.derr = false ∧
    (List.replicate 16 false).length = 16 := ⟨inv_built02, rfl, rfl, rfl⟩
theorem witness_ResetInputEffect : (pending atDlOld .reset).turns = .reset :: [] := rfl
theorem witness_EveryLegalTurnHasANextState : ∀ e ∈ (pending built02 (.read 0x7FFFC 4)).turns.head?, e.legal = true := by
  intro e h; cases h; decide
theorem witness_TablesChangeOnlyByHostWrites :
    answers (step (pending built02 (.write 0x0000C 4 7))) (fun t => t.nlen != built02.nlen) = true ∧
    answers (step (pending built02 (.write 0x00010 4 7))) (fun t => t.nval != built02.nval) = true ∧
    answers (step (pending built02 (.write 0x0007C 4 7))) (fun t => t.len[15] != built02.len[15]) = true ∧
    answers (step (pending built02 (.write 0x40004 4 7))) (fun t => valAt t 1 != valAt built02 1) = true := by decide
theorem witness_TreeIsImmutableBetweenBuilds :
    answers (step (pending built02 (.write 0x00000 4 0x10))) (fun t => t.nodes != built02.nodes) = true ∧
    answers (step (pending built02 .reset)) (fun t => t.nodes != built02.nodes) = true ∧
    answers (step (pending built02 (.write 0x00000 4 0x20))) (fun t => t.nodes == built02.nodes) = true := by decide
theorem witness_WhatClearsTheErrorFlags :
    answers (step (pending { built02 with derr := true } (.write 0x00000 4 0x30))) (fun t => t.derr == false) = true ∧
    answers (step (pending { built02 with berr := some .infeasible } (.write 0x00000 4 0x10))) (fun t => t.berr == none) = true ∧
    answers (step atFinish) (fun t => t.built) = true ∧ atFinish.built = false := by decide
theorem witness_WhatSetsTheFlags :
    answers (step (pending built02 (.write 0x00000 4 0x21))) (fun t => t.derr && t.result != built02.result) = true ∧
    answers (step (pending { State.reset with nlen := 17 } (.write 0x00000 4 0x10))) (fun t => t.berr == some .tableTooLarge) = true ∧
    answers (step (pending { State.reset with nlen := 16 } (.write 0x00000 4 0x10))) (fun t => t.phase == .build) = true ∧
    answers (step atTooFew) (fun t => t.berr == some .tooFewValues && t.phase == .idle) = true ∧
    answers (step atInfeasible) (fun t => t.berr == some .infeasible && t.phase == .idle) = true ∧
    answers (step (pending atFinish .engine)) (fun t => t.built && t.phase == .idle) = true ∧
    answers (step (pending atDlOld .reset)) (fun t => t.phase == .idle) = true := by decide
theorem witness_HowABuildEnds : Inv atFinish ∧ Inv atTooFew ∧ Inv atInfeasible ∧
    answers (step atFinish) (fun t => t.phase == .idle) = true ∧ answers (step atTooFew) (fun t => t.phase == .idle) = true ∧
    answers (step atInfeasible) (fun t => t.phase == .idle) = true :=
  ⟨inv_atFinish, inv_atTooFew, inv_atInfeasible, by decide, by decide, by decide⟩
theorem witness_EveryStepKeepsTheInvariant : Inv atDrNew ∧ step atDrNew = .next (engineTurn atDrNew) := ⟨inv_atDrNew, rfl⟩
theorem witness_EngineArithmeticNeverWraps : Inv atSkip ∧ Inv atPlace ∧ Inv atDlNew ∧ Inv atDrNew ∧ Inv atDlOld ∧ Inv atDrOld ∧
    Inv atAscend ∧ atAscend.phase = .build :=
  ⟨inv_atSkip, inv_atPlace, inv_atDlNew, inv_atDrNew, inv_atDlOld, inv_atDrOld, inv_atAscend, rfl⟩
theorem witness_HostCannotDisturbABuild : atSkip.phase = .build ∧
    (∀ e ∈ [Turn.read 0x00004 4, .engine, .write 0x00000 4 0x20], e.legal = true ∧ e ≠ .reset) ∧
    (engineTurns ([Turn.read 0x00004 4, .engine, .write 0x00000 4 0x20].count .engine) atSkip).phase = .build := by decide
theorem witness_RebuildForgetsThePast : built02.phase = .idle ∧ (withTables [0, 2] [10, 20]).phase = .idle ∧
    built02.nlen = (withTables [0, 2] [10, 20]).nlen ∧ built02.len = (withTables [0, 2] [10, 20]).len ∧
    built02.nval = (withTables [0, 2] [10, 20]).nval ∧ ∀ k, valAt built02 k = valAt (withTables [0, 2] [10, 20]) k :=
  ⟨rfl, rfl, rfl, rfl, rfl, fun _ => rfl⟩
theorem witness_ValuesDoNotShapeTheTree : built02.phase = .idle := rfl
theorem witness_EveryBuildEnds : built02.phase = .idle := rfl
theorem witness_BuildOutcomeIsTheKraftCondition : State.reset.phase = .idle ∧ (afterBuild State.reset 1).phase = .idle := by decide
theorem witness_CanonicalCodesDecodeToTheirValues : (withTables [1] [0x41]).phase = .idle ∧
    (afterBuild (withTables [1] [0x41]) 4).phase = .idle ∧ (afterBuild (withTables [1] [0x41]) 4).built = true ∧
    (canonicalCodes (lengthSequence (withTables [1] [0x41])))[0]? = some (1, 0) := by decide

end Sys2Proof.Tests
end

section
/-! SUPPORT. The proofs of the scope statements (00_scope.md R5 and R6), and the facts about a host write to CMD and about BASE they
rest on. -/

namespace Sys2Proof.Machine

/-! ## A host write -/

/-- A write inside the register space is the next step when it is the next event (R6, R42). -/
theorem step_write_legal {s : State} {off : Nat} {v : Word} {ts : List Turn} (next : s.turns = .write off 4 v :: ts)
    (aligned : off % 4 = 0) (inside : off < 524288) : step s = writeAccess off v { s with turns := ts } := by
  unfold step
  rw [next]
  exact checkedAccess_legal off _ aligned inside

/-- Offset 0 is CMD: a write there carries whatever command its word decodes to (R41, R61). -/
@[simp] theorem commandOf_zero (v : Word) : commandOf 0 v = decode? v := rfl

/-- A write that carries a command has that command's effect (R45). -/
theorem writeAccess_of_command {off : Nat} {v : Word} {i : Instr} (h : commandOf off v = some i) (s : State) :
    writeAccess off v s = exec i s := by
  simp only [writeAccess, h]

/-- The write of a command word to CMD is one step that runs the command (R6, R45). -/
theorem step_write_command {s : State} {w : Word} {i : Instr} {ts : List Turn} (decodes : decode? w = some i)
    (next : s.turns = .write 0 4 w :: ts) : step s = exec i { s with turns := ts } := by
  rw [step_write_legal next (by decide) (by decide)]
  exact writeAccess_of_command (by rw [commandOf_zero, decodes]) _

/-- A 32-bit word loaded by its number is the word placed as a write to CMD, before the events already there. -/
theorem withFetchWord_turns (s : State) (w : Word) :
    (s.withFetchWord 32 w.toNat).turns = .write 0 4 w :: s.turns := by
  simp [State.withFetchWord, Nat.mod_eq_of_lt w.isLt]

/-- Taking the loaded event off again gives the state back. -/
theorem withFetchWord_taken (s : State) (nbits w : Nat) : { s.withFetchWord nbits w with turns := s.turns } = s := rfl

/-- Settles O6: the access is legal and carries the command, and a loaded word is such a write with `s.turns` behind it. -/
theorem stepRunsTheDecodedCommand : Obligations.StepRunsTheDecodedCommand := by
  intro s w i decodes
  refine ⟨fun ts next => step_write_command decodes next, ?_⟩
  rw [step_write_command decodes (withFetchWord_turns s w), withFetchWord_taken]

/-! ## Platform addresses -/

/-- BASE is aligned to the register space (R5). -/
theorem base_mod_regSpaceBytes : base % Config.regSpaceBytes = 0 := by
  rw [base, Nat.mul_mod_left]

/-- The register space is 2^19 bytes (R40). -/
theorem regSpaceBytes_eq : Config.regSpaceBytes = 2 ^ 19 := by
  norm_num [Config.regSpaceBytes]

/-- An address has an offset exactly when it lies that far above BASE, inside the register space (R40, R41). -/
theorem offsetOfAddress_eq_some_iff (a off : Nat) :
    offsetOfAddress a = some off ↔ a = base + off ∧ off < Config.regSpaceBytes := by
  unfold offsetOfAddress
  split
  · next inside =>
    rw [Option.some.injEq]
    omega
  · next outside =>
    simp only [reduceCtorEq, false_iff]
    omega

/-- Settles O15: BASE is a whole number of register spaces, and the conversion is subtraction of BASE within one. -/
theorem platformAddressesOfTheBlock : Obligations.PlatformAddressesOfTheBlock := by
  unfold Obligations.PlatformAddressesOfTheBlock
  rw [← regSpaceBytes_eq]
  exact ⟨base_mod_regSpaceBytes, offsetOfAddress_eq_some_iff⟩

end Sys2Proof.Machine
end

section
/-! SUPPORT. The code tree of R13 in proofs: the depth of a node, the conditions of `TreeOk` as structures with named fields, and the
sums over the nodes that bound `alloc` and `vidx`. -/

namespace Sys2Proof.Machine

/-! ## Sums over the allocated nodes -/

theorem overNodes_eq_sum (s : State) (f : Nat → Nat) : overNodes s f = ∑ k ∈ Finset.range s.alloc.toNat, f k := rfl

/-- The sum depends on the quantity at allocated nodes only. -/
theorem overNodes_congr {s t : State} {f g : Nat → Nat} (alloc : t.alloc = s.alloc)
    (same : ∀ k, k < s.alloc.toNat → g k = f k) : overNodes t g = overNodes s f := by
  rw [overNodes_eq_sum, overNodes_eq_sum, alloc]
  exact Finset.sum_congr rfl fun k hk => same k (Finset.mem_range.1 hk)

/-- Two quantities that differ at one node only have sums that differ by as much. -/
theorem sum_range_change {n c : Nat} {f g : Nat → Nat} (inside : c < n) (same : ∀ k, k < n → k ≠ c → g k = f k) :
    (∑ k ∈ Finset.range n, g k) + f c = (∑ k ∈ Finset.range n, f k) + g c := by
  have mem := Finset.mem_range.2 inside
  have rest : ∑ k ∈ (Finset.range n).erase c, g k = ∑ k ∈ (Finset.range n).erase c, f k :=
    Finset.sum_congr rfl fun k hk => same k (Finset.mem_range.1 (Finset.mem_of_mem_erase hk)) (Finset.ne_of_mem_erase hk)
  rw [← Finset.add_sum_erase _ g mem, ← Finset.add_sum_erase _ f mem, rest]
  omega

/-- A quantity that changes at one allocated node only changes the sum by as much. -/
theorem overNodes_change {s t : State} {f g : Nat → Nat} {c : Nat} (alloc : t.alloc = s.alloc) (allocated : c < s.alloc.toNat)
    (same : ∀ k, k < s.alloc.toNat → k ≠ c → g k = f k) : overNodes t g + f c = overNodes s f + g c := by
  rw [overNodes_eq_sum, overNodes_eq_sum, alloc]
  exact sum_range_change allocated same

/-- The sum after one more node is allocated and one older node is rewritten. -/
theorem overNodes_extend {s t : State} {f g : Nat → Nat} {c : Nat} (alloc : t.alloc.toNat = s.alloc.toNat + 1)
    (allocated : c < s.alloc.toNat) (same : ∀ k, k < s.alloc.toNat → k ≠ c → g k = f k) :
    overNodes t g + f c = overNodes s f + g c + g s.alloc.toNat := by
  rw [overNodes_eq_sum, overNodes_eq_sum, alloc, Finset.sum_range_succ]
  have := sum_range_change allocated same
  omega

/-! ## The depth of a node -/

theorem climb_root {s : State} {k : Nat} (root : (nodeAt s k).parent = none) (n : Nat) : climb s (n + 1) k = some 0 := by
  simp [climb, root]

theorem climb_parent {s : State} {k : Nat} {p : NodeIdx} (up : (nodeAt s k).parent = some p) (n : Nat) :
    climb s (n + 1) k = (climb s n p.toNat).map (· + 1) := by
  simp [climb, up]

/-- A climb that reaches the root does so on any fuel above its length, and on no other. -/
theorem climb_fuel {s : State} {n k d : Nat} (h : climb s n k = some d) : d < n ∧ ∀ m, d < m → climb s m k = some d := by
  induction n generalizing k d with
  | zero => cases h
  | succ n ih =>
    cases up : (nodeAt s k).parent with
    | none =>
      cases (climb_root up n).symm.trans h
      refine ⟨by omega, fun m hm => ?_⟩
      obtain ⟨m, rfl⟩ := Nat.exists_eq_succ_of_ne_zero (Nat.ne_of_gt hm)
      exact climb_root up m
    | some p =>
      rw [climb_parent up, Option.map_eq_some_iff] at h
      obtain ⟨e, he, rfl⟩ := h
      obtain ⟨lt, more⟩ := ih he
      refine ⟨by omega, fun m hm => ?_⟩
      obtain ⟨m, rfl⟩ := Nat.exists_eq_succ_of_ne_zero (Nat.ne_of_gt (Nat.zero_lt_of_lt hm))
      rw [climb_parent up, more m (by omega), Option.map_some]

theorem depthOf_root {s : State} {k : Nat} (root : (nodeAt s k).parent = none) : depthOf s k = some 0 := climb_root root 16

/-- A child is one edge deeper than its parent. -/
theorem depthOf_child {s : State} {k d : Nat} {p : NodeIdx} (up : (nodeAt s k).parent = some p)
    (depth : depthOf s p.toNat = some d) (room : d < 16) : depthOf s k = some (d + 1) := by
  rw [depthOf, climb_parent up, (climb_fuel depth).2 16 room, Option.map_some]

/-- A parent is one edge nearer to the root. -/
theorem depthOf_parent {s : State} {k d : Nat} {p : NodeIdx} (up : (nodeAt s k).parent = some p) (depth : depthOf s k = some d) :
    ∃ e, d = e + 1 ∧ depthOf s p.toNat = some e := by
  rw [depthOf, climb_parent up, Option.map_eq_some_iff] at depth
  obtain ⟨e, he, rfl⟩ := depth
  obtain ⟨lt, more⟩ := climb_fuel he
  exact ⟨e, rfl, more 17 (by omega)⟩

/-- Depths agree on a set of nodes closed under parents on which the parents agree. -/
theorem depthOf_congr {s t : State} (P : Nat → Prop) (same : ∀ k, P k → (nodeAt t k).parent = (nodeAt s k).parent)
    (closed : ∀ k p, P k → (nodeAt s k).parent = some p → P p.toNat) {k : Nat} (hk : P k) : depthOf t k = depthOf s k := by
  have climbs : ∀ n k, P k → climb t n k = climb s n k := by
    intro n
    induction n with
    | zero => exact fun _ _ => rfl
    | succ n ih =>
      intro k hk
      cases up : (nodeAt s k).parent with
      | none => rw [climb_root up, climb_root ((same k hk).trans up)]
      | some p => rw [climb_parent up, climb_parent ((same k hk).trans up), ih _ (closed k p hk up)]
  exact climbs 17 k hk

/-! ## One node -/

/-- `edge` goes through the two pointers of a node. -/
theorem edge_some_iff (n : Node) (x : NodeIdx) : (∃ b, edge n b = some x) ↔ n.left = some x ∨ n.right = some x := by
  simp [edge]

theorem childless_false_of_edge {n : Node} {b : Bool} {x : NodeIdx} (h : edge n b = some x) : childless n = false := by
  cases b <;> simp_all [edge, childless]

theorem childOk_iff (s : State) (k : Nat) (c : Option NodeIdx) : childOk s k c = true ↔
    ∀ x, c = some x → k < x.toNat ∧ x.toNat < s.alloc.toNat ∧ (nodeAt s x.toNat).parent = some (BitVec.ofNat 17 k) := by
  cases c <;> simp [childOk, and_assoc]

theorem parentOk_iff (s : State) (k : Nat) (p : Option NodeIdx) : parentOk s k p = true ↔
    ∃ x, p = some x ∧ x.toNat < s.alloc.toNat ∧ ∃ b, edge (nodeAt s x.toNat) b = some (BitVec.ofNat 17 k) := by
  simp only [edge_some_iff]
  cases p <;> simp [parentOk]

theorem siblingsOk_iff (n : Node) : siblingsOk n = true ↔ (n.right ≠ none → n.left ≠ none ∧ n.left ≠ n.right) := by
  cases right : n.right <;> simp [siblingsOk, right, Option.isSome_iff_ne_none]

/-- What `nodeOk` says of node `k` (R13(a), (c), (e), (f)). -/
structure Linked (s : State) (k : Nat) : Prop where
  child : ∀ b x, edge (nodeAt s k) b = some x →
    k < x.toNat ∧ x.toNat < s.alloc.toNat ∧ (nodeAt s x.toNat).parent = some (BitVec.ofNat 17 k)
  siblings : (nodeAt s k).right ≠ none → (nodeAt s k).left ≠ none ∧ (nodeAt s k).left ≠ (nodeAt s k).right
  leaf : (nodeAt s k).used = true → childless (nodeAt s k) = true
  parent : k ≠ 0 → ∃ p, (nodeAt s k).parent = some p ∧ p.toNat < s.alloc.toNat ∧
    ∃ b, edge (nodeAt s p.toNat) b = some (BitVec.ofNat 17 k)
  depth : ∃ d, depthOf s k = some d

theorem nodeOk_iff (s : State) (k : Nat) : nodeOk s k = true ↔ Linked s k := by
  simp only [nodeOk, Bool.and_eq_true, Bool.or_eq_true, Bool.not_eq_true', beq_iff_eq, childOk_iff, parentOk_iff, siblingsOk_iff,
    Option.isSome_iff_exists]
  constructor
  · rintro ⟨⟨⟨⟨⟨left, right⟩, siblings⟩, leaf⟩, parent⟩, depth⟩
    exact ⟨fun b => by cases b; exacts [left, right], siblings, fun used => leaf.resolve_left (by simp [used]),
      fun ne => parent.resolve_left ne, depth⟩
  · rintro ⟨child, siblings, leaf, parent, depth⟩
    have used_or : (nodeAt s k).used = false ∨ childless (nodeAt s k) = true := by
      rw [← Bool.not_eq_true]
      exact not_or_of_imp leaf
    exact ⟨⟨⟨⟨⟨child false, child true⟩, siblings⟩, used_or⟩, or_iff_not_imp_left.2 parent⟩, depth⟩

/-! ## The whole tree -/

/-- What `TreeOk` says (R13, R14, R16, R53). -/
structure CodeTree (s : State) : Prop where
  rootParent : (nodeAt s 0).parent = none
  rootUnused : (nodeAt s 0).used = false
  linked : ∀ k, k < s.alloc.toNat → Linked s k
  words : overNodes s (openWords s) = 65536
  edges : s.alloc.toNat = overNodes s (childCount s) + 1

theorem treeOk_iff (s : State) : TreeOk s ↔ CodeTree s := by
  simp only [TreeOk, nodeOk_iff]
  exact ⟨fun ⟨a, b, c, d, e⟩ => ⟨a, b, c, d, e⟩, fun ⟨a, b, c, d, e⟩ => ⟨a, b, c, d, e⟩⟩

namespace CodeTree

variable {s : State} (tree : CodeTree s)
include tree

theorem alloc_pos : 0 < s.alloc.toNat := by
  have := tree.edges
  omega

/-- Only the root has no parent (R14). -/
theorem ne_zero_of_parent {k : Nat} {p : NodeIdx} (up : (nodeAt s k).parent = some p) : k ≠ 0 := by
  rintro rfl
  simp [tree.rootParent] at up

/-- A parent pointer leads to an allocated node that is not childless. -/
theorem parent_allocated {k : Nat} {p : NodeIdx} (allocated : k < s.alloc.toNat) (up : (nodeAt s k).parent = some p) :
    p.toNat < s.alloc.toNat ∧ childless (nodeAt s p.toNat) = false := by
  obtain ⟨q, hq, lt, b, he⟩ := (tree.linked k allocated).parent (tree.ne_zero_of_parent up)
  obtain rfl : q = p := by simpa using hq.symm.trans up
  exact ⟨lt, childless_false_of_edge he⟩

/-- An edge from a node of known depth leads one level down. -/
theorem depthOf_edge {k d : Nat} {b : Bool} {x : NodeIdx} (allocated : k < s.alloc.toNat) (depth : depthOf s k = some d)
    (down : edge (nodeAt s k) b = some x) : depthOf s x.toNat = some (d + 1) := by
  obtain ⟨-, inside, up⟩ := (tree.linked k allocated).child b x down
  obtain ⟨e, he⟩ := (tree.linked _ inside).depth
  obtain ⟨e, rfl, parentDepth⟩ := depthOf_parent up he
  have small := s.alloc.isLt
  rw [BitVec.toNat_ofNat, Nat.mod_eq_of_lt (by omega), depth] at parentDepth
  cases parentDepth
  exact he

/-! ### Capacity (R16, R53) -/

/-- The code words below each node, and its children, make up for it twice. -/
theorem two_le_openWords {k : Nat} (allocated : k < s.alloc.toNat) : 2 ≤ 2 * openWords s k + childCount s k := by
  have atLeaf := Nat.one_le_two_pow (n := 16 - (depthOf s k).getD 0)
  have atHalf := Nat.one_le_two_pow (n := 15 - (depthOf s k).getD 0)
  have siblings := (tree.linked k allocated).siblings
  cases left : (nodeAt s k).left <;> cases right : (nodeAt s k).right <;>
    simp_all [openWords, childCount, childless]
  omega

/-- With one code word to spare below some node there is room for one more node. -/
theorem alloc_lt_of_spare {c : Nat} (allocated : c < s.alloc.toNat) (spare : 2 < 2 * openWords s c + childCount s c) :
    s.alloc.toNat + 1 ≤ 131071 := by
  have total : ∑ _k ∈ Finset.range s.alloc.toNat, 2 <
      ∑ k ∈ Finset.range s.alloc.toNat, (2 * openWords s k + childCount s k) :=
    Finset.sum_lt_sum (fun k hk => tree.two_le_openWords (Finset.mem_range.1 hk)) ⟨c, Finset.mem_range.2 allocated, spare⟩
  rw [Finset.sum_const, Finset.card_range, smul_eq_mul, Finset.sum_add_distrib, ← Finset.mul_sum,
    ← overNodes_eq_sum s (openWords s), ← overNodes_eq_sum s (childCount s), tree.words] at total
  have := tree.edges
  omega

/-- A used node stands for at least one code word. -/
theorem used_le_openWords {k : Nat} (allocated : k < s.alloc.toNat) : (nodeAt s k).used.toNat ≤ openWords s k := by
  cases used : (nodeAt s k).used with
  | false => exact Nat.zero_le _
  | true => simpa [openWords, (tree.linked k allocated).leaf used] using Nat.one_le_two_pow

/-- While some childless node is not used, fewer than 2^16 are (R97(d)). -/
theorem usedCount_lt {c : Nat} (allocated : c < s.alloc.toNat) (bare : childless (nodeAt s c) = true)
    (unused : (nodeAt s c).used = false) : usedCount s < 65536 := by
  rw [← tree.words]
  refine Finset.sum_lt_sum (fun k hk => tree.used_le_openWords (Finset.mem_range.1 hk)) ⟨c, Finset.mem_range.2 allocated, ?_⟩
  simp [unused, openWords, bare]

end CodeTree

/-! ### The code words of one node -/

theorem openWords_childless {s : State} {k d : Nat} (depth : depthOf s k = some d) (bare : childless (nodeAt s k) = true) :
    openWords s k = 2 ^ (16 - d) := by
  simp [openWords, bare, depth]

theorem openWords_leftOnly {s : State} {k d : Nat} (depth : depthOf s k = some d) (left : (nodeAt s k).left ≠ none)
    (right : (nodeAt s k).right = none) : openWords s k = 2 ^ (15 - d) := by
  simp [openWords, childless, left, right, depth]

theorem openWords_right {s : State} {k : Nat} (right : (nodeAt s k).right ≠ none) : openWords s k = 0 := by
  simp [openWords, childless, right]

/-! ## Trees with the same edges -/

/-- Two states whose nodes have the same pointers; values, `used` and stamps may differ. -/
structure SameLinks (s t : State) : Prop where
  alloc : t.alloc = s.alloc
  left : ∀ k, (nodeAt t k).left = (nodeAt s k).left
  right : ∀ k, (nodeAt t k).right = (nodeAt s k).right
  parent : ∀ k, (nodeAt t k).parent = (nodeAt s k).parent

theorem SameLinks.of_nodes {s t : State} (nodes : t.nodes = s.nodes) (alloc : t.alloc = s.alloc) : SameLinks s t :=
  ⟨alloc, fun k => by rw [nodeAt_congr nodes], fun k => by rw [nodeAt_congr nodes], fun k => by rw [nodeAt_congr nodes]⟩

/-- Every node after one is rewritten. -/
theorem nodeAt_of_setNode {s t : State} {c : Nat} {n : Node} (nodes : t.nodes = (setNode s c n).nodes) (k : Nat) :
    nodeAt t k = if k = c then n else nodeAt s k := by
  rw [nodeAt_congr nodes]
  split
  · next h => rw [h, nodeAt_setNode_same]
  · next h => rw [nodeAt_setNode_other _ _ _ _ h]

/-- A node rewritten with its pointers kept. -/
theorem SameLinks.of_setNode {s t : State} {c : Nat} {n : Node} (nodes : t.nodes = (setNode s c n).nodes) (alloc : t.alloc = s.alloc)
    (left : n.left = (nodeAt s c).left) (right : n.right = (nodeAt s c).right) (parent : n.parent = (nodeAt s c).parent) :
    SameLinks s t := by
  refine ⟨alloc, fun k => ?_, fun k => ?_, fun k => ?_⟩ <;> rw [nodeAt_of_setNode nodes] <;> split <;> simp_all

namespace SameLinks

variable {s t : State} (links : SameLinks s t)
include links

theorem childless (k : Nat) : Machine.childless (nodeAt t k) = Machine.childless (nodeAt s k) := by
  rw [Machine.childless, Machine.childless, links.left, links.right]

theorem edge (k : Nat) (b : Bool) : Machine.edge (nodeAt t k) b = Machine.edge (nodeAt s k) b := by
  rw [Machine.edge, Machine.edge, links.left, links.right]

theorem depthOf (k : Nat) : Machine.depthOf t k = Machine.depthOf s k :=
  depthOf_congr (fun _ => True) (fun k _ => links.parent k) (fun _ _ _ _ => trivial) trivial

theorem openWords (k : Nat) : Machine.openWords t k = Machine.openWords s k := by
  rw [Machine.openWords, Machine.openWords, links.childless, links.depthOf, links.right]

theorem childCount (k : Nat) : Machine.childCount t k = Machine.childCount s k := by
  rw [Machine.childCount, Machine.childCount, links.left, links.right]

end SameLinks

/-- A tree stays one as long as its edges do and only childless nodes other than the root are used. -/
theorem CodeTree.of_sameLinks {s t : State} (tree : CodeTree s) (links : SameLinks s t)
    (used : ∀ k, k < s.alloc.toNat → (nodeAt t k).used = true → k ≠ 0 ∧ childless (nodeAt s k) = true) : CodeTree t where
  rootParent := (links.parent 0).trans tree.rootParent
  rootUnused := by
    cases h : (nodeAt t 0).used
    · rfl
    · exact absurd rfl (used 0 tree.alloc_pos h).1
  linked k hk := by
    rw [links.alloc] at hk
    obtain ⟨child, siblings, -, parent, depth⟩ := tree.linked k hk
    simp only [← links.parent, ← links.edge, ← links.alloc, ← links.left, ← links.right, ← links.depthOf]
      at child siblings parent depth
    exact ⟨child, siblings, fun h => (links.childless k).trans (used k hk h).2, parent, depth⟩
  words := (overNodes_congr links.alloc fun k _ => links.openWords k).trans tree.words
  edges := by rw [links.alloc, tree.edges, overNodes_congr links.alloc fun k _ => links.childCount k]

/-- A tree is made of `nodes` and `alloc` alone. -/
theorem CodeTree.of_nodes {s t : State} (tree : CodeTree s) (nodes : t.nodes = s.nodes) (alloc : t.alloc = s.alloc) : CodeTree t := by
  refine tree.of_sameLinks (.of_nodes nodes alloc) fun k hk used => ?_
  rw [nodeAt_congr nodes] at used
  refine ⟨?_, (tree.linked k hk).leaf used⟩
  rintro rfl
  simp [tree.rootUnused] at used

/-- The bare root is a tree (R13, R102). -/
theorem CodeTree.of_bareRoot {s : State} (nodes : s.nodes = [(0, rootClear)]) (alloc : s.alloc = 1) : CodeTree s :=
  CodeTree.of_nodes ((treeOk_iff State.reset).1 (by decide)) nodes alloc

end Sys2Proof.Machine
end

section
/-! SUPPORT. The node memory's listed indices (R16), and that a child made under the cursor (R89, R91) keeps the tree. -/

namespace Sys2Proof.Machine

/-! ## The listed indices -/

/-- Writing a listed index keeps a gapless list of indices as it is. -/
theorem store_keys_inside {α : Type} (m : List (Nat × α)) (a k : Nat) (x : α) (keys : m.map Prod.fst = List.range' a m.length)
    (from_a : a ≤ k) (inside : k < a + m.length) : (store m k x).map Prod.fst = m.map Prod.fst := by
  induction m generalizing a with
  | nil => simp at inside; omega
  | cons e m ih =>
    obtain ⟨b, y⟩ := e
    simp only [List.map_cons, List.length_cons, List.range'_succ, List.cons.injEq] at keys inside
    obtain ⟨rfl, tail⟩ := keys
    by_cases head : b = k
    · simp [store, head]
    · simp [store, head, Nat.not_lt.2 from_a, ih (b + 1) tail (by omega) (by omega)]

/-- Writing the index after the last one of a gapless list adds it at the end. -/
theorem store_keys_next {α : Type} (m : List (Nat × α)) (a : Nat) (x : α) (keys : m.map Prod.fst = List.range' a m.length) :
    (store m (a + m.length) x).map Prod.fst = m.map Prod.fst ++ [a + m.length] := by
  induction m generalizing a with
  | nil => rfl
  | cons e m ih =>
    obtain ⟨b, y⟩ := e
    simp only [List.map_cons, List.length_cons, List.range'_succ, List.cons.injEq] at keys
    obtain ⟨rfl, tail⟩ := keys
    have next : b + (m.length + 1) = b + 1 + m.length := by omega
    have past : ¬b + 1 + m.length < b ∧ b ≠ b + 1 + m.length := by omega
    simp [store, next, past, ih (b + 1) tail]

namespace MemoryOk

variable {s t : State} (memory : MemoryOk s)
include memory

/-- The node memory lists as many nodes as are allocated, from 0 on. -/
theorem keys_range' : s.nodes.length = s.alloc.toNat ∧ s.nodes.map Prod.fst = List.range' 0 s.nodes.length := by
  obtain ⟨-, -, -, keys⟩ := memory
  have length : s.nodes.length = s.alloc.toNat := by simpa using congrArg List.length keys
  exact ⟨length, by rw [keys, length, List.range_eq_range']⟩

theorem of_same (nodes : t.nodes = s.nodes) (alloc : t.alloc = s.alloc) (vals : t.vals = s.vals) : MemoryOk t := by
  rw [MemoryOk, nodes, alloc, vals]
  exact memory

/-- The bare root beside an unchanged VAL. -/
theorem of_bareRoot (nodes : t.nodes = [(0, rootClear)]) (alloc : t.alloc = 1) (vals : t.vals = s.vals) : MemoryOk t := by
  obtain ⟨-, valsWf, valsBound, -⟩ := memory
  rw [MemoryOk, nodes, alloc, vals]
  exact ⟨rfl, valsWf, valsBound, rfl⟩

/-- An allocated node rewritten. -/
theorem setNode {c : Nat} (n : Node) (allocated : c < s.alloc.toNat) : MemoryOk (setNode s c n) := by
  obtain ⟨length, range'⟩ := memory.keys_range'
  obtain ⟨wf, valsWf, valsBound, keys⟩ := memory
  exact ⟨memoryWf_store _ _ _ wf, valsWf, valsBound, (store_keys_inside _ 0 _ _ range' (by omega) (by omega)).trans keys⟩

/-- The node at index `alloc` written and counted as allocated. -/
theorem appendNode (n : Node) (alloc : t.alloc.toNat = s.alloc.toNat + 1)
    (nodes : t.nodes = store s.nodes s.alloc.toNat n) (vals : t.vals = s.vals) : MemoryOk t := by
  obtain ⟨length, range'⟩ := memory.keys_range'
  obtain ⟨wf, valsWf, valsBound, keys⟩ := memory
  rw [MemoryOk, nodes, alloc, vals]
  refine ⟨memoryWf_store _ _ _ wf, valsWf, valsBound, ?_⟩
  have appended := store_keys_next s.nodes 0 n range'
  rw [Nat.zero_add, length, keys] at appended
  rw [appended, List.range_succ]

end MemoryOk

/-! ## A child made under the cursor -/

/-- A node with the edge of one bit set. -/
def withEdge (n : Node) (b : Bool) (x : NodeIdx) : Node := if b then { n with right := some x } else { n with left := some x }

@[simp] theorem edge_withEdge_same (n : Node) (b : Bool) (x : NodeIdx) : edge (withEdge n b x) b = some x := by cases b <;> rfl

@[simp] theorem edge_withEdge_other (n : Node) (b : Bool) (x : NodeIdx) : edge (withEdge n b x) (!b) = edge n (!b) := by
  cases b <;> rfl

@[simp] theorem withEdge_parent (n : Node) (b : Bool) (x : NodeIdx) : (withEdge n b x).parent = n.parent := by cases b <;> rfl

@[simp] theorem withEdge_used (n : Node) (b : Bool) (x : NodeIdx) : (withEdge n b x).used = n.used := by cases b <;> rfl

@[simp] theorem withEdge_visited (n : Node) (b : Bool) (x : NodeIdx) : (withEdge n b x).visited = n.visited := by cases b <;> rfl

@[simp] theorem edge_fresh (p : NodeIdx) (b : Bool) : edge (fresh p) b = none := by cases b <;> rfl

/-- DL_NEW for `false`, DR_NEW for `true` (R89, R91). -/
def newChild (s : State) (b : Bool) : State := createChild s (withEdge (here s) b s.alloc)

theorem stepDlNew_eq (s : State) : stepDlNew s = newChild s false := rfl

theorem stepDrNew_eq (s : State) : stepDrNew s = newChild s true := rfl

/-- What a state has to be for `newChild s b` to keep the tree: the cursor, at depth `d`, has room below and its edge `b` free. -/
structure CanGrow (s : State) (b : Bool) (d : Nat) : Prop where
  tree : CodeTree s
  allocated : s.cursor.toNat < s.alloc.toNat
  depth : depthOf s s.cursor.toNat = some d
  room : d < 16
  free : edge (here s) b = none
  leftFirst : b = true → (here s).left ≠ none
  unused : (here s).used = false

/-! ### What `newChild` writes -/

section

variable {s : State} {b : Bool}

theorem nodeAt_newChild_cursor : nodeAt (newChild s b) s.cursor.toNat = withEdge (here s) b s.alloc := nodeAt_setNode_same _ _ _

theorem nodeAt_newChild_alloc (allocated : s.cursor.toNat < s.alloc.toNat) :
    nodeAt (newChild s b) s.alloc.toNat = fresh s.cursor :=
  (nodeAt_setNode_other _ _ _ _ (Nat.ne_of_gt allocated)).trans (nodeAt_setNode_same _ _ _)

theorem nodeAt_newChild_other {k : Nat} (old : k < s.alloc.toNat) (ne : k ≠ s.cursor.toNat) :
    nodeAt (newChild s b) k = nodeAt s k :=
  (nodeAt_setNode_other _ _ _ _ ne).trans (nodeAt_setNode_other _ _ _ _ (Nat.ne_of_lt old))

/-- An old node keeps its parent, its `used` and its stamp. -/
theorem nodeAt_newChild_old {k : Nat} (old : k < s.alloc.toNat) :
    (nodeAt (newChild s b) k).parent = (nodeAt s k).parent ∧ (nodeAt (newChild s b) k).used = (nodeAt s k).used ∧
      (nodeAt (newChild s b) k).visited = (nodeAt s k).visited := by
  by_cases cursor : k = s.cursor.toNat
  · rw [cursor, nodeAt_newChild_cursor, withEdge_parent, withEdge_used, withEdge_visited]
    exact ⟨rfl, rfl, rfl⟩
  · rw [nodeAt_newChild_other old cursor]
    exact ⟨rfl, rfl, rfl⟩

theorem parent_newChild_old {k : Nat} (old : k < s.alloc.toNat) : (nodeAt (newChild s b) k).parent = (nodeAt s k).parent :=
  (nodeAt_newChild_old old).1

theorem used_newChild_old {k : Nat} (old : k < s.alloc.toNat) : (nodeAt (newChild s b) k).used = (nodeAt s k).used := by
  obtain ⟨-, used, -⟩ := nodeAt_newChild_old (b := b) old
  exact used

theorem childless_newChild_cursor : childless (nodeAt (newChild s b) s.cursor.toNat) = false := by
  rw [nodeAt_newChild_cursor]
  exact childless_false_of_edge (edge_withEdge_same _ b _)

end

namespace CanGrow

variable {s : State} {d : Nat}

/-- The left-first rule: a free left edge means no child at all. -/
theorem bare (grow : CanGrow s false d) : childless (nodeAt s s.cursor.toNat) = true := by
  refine (childless_iff _).2 ⟨grow.free, by_contra fun right => ?_⟩
  exact ((grow.tree.linked _ grow.allocated).siblings right).1 grow.free

variable {b : Bool} (grow : CanGrow s b d)
include grow

/-! ### Old nodes keep their place -/

theorem depthOf_old {k : Nat} (old : k < s.alloc.toNat) : depthOf (newChild s b) k = depthOf s k :=
  depthOf_congr (· < s.alloc.toNat) (fun _ hk => parent_newChild_old hk)
    (fun _ _ hk up => (grow.tree.parent_allocated hk up).1) old

theorem edge_old {k : Nat} {c : Bool} {x : NodeIdx} (old : k < s.alloc.toNat) (h : edge (nodeAt s k) c = some x) :
    edge (nodeAt (newChild s b) k) c = some x := by
  by_cases cursor : k = s.cursor.toNat
  · subst cursor
    have other : c = !b := by
      rw [Bool.eq_not]
      rintro rfl
      exact absurd (h.symm.trans grow.free) (by simp)
    rw [nodeAt_newChild_cursor, other, edge_withEdge_other, ← other]
    exact h
  · rwa [nodeAt_newChild_other old cursor]

theorem depthOf_new : depthOf (newChild s b) s.alloc.toNat = some (d + 1) := by
  refine depthOf_child ?_ ((grow.depthOf_old grow.allocated).trans grow.depth) grow.room
  rw [nodeAt_newChild_alloc grow.allocated, fresh_parent]

/-! ### The new node takes its code words from the cursor's -/

theorem openWords_new : openWords (newChild s b) s.alloc.toNat = 2 ^ (15 - d) := by
  rw [openWords_childless grow.depthOf_new (by rw [nodeAt_newChild_alloc grow.allocated, childless_fresh])]
  congr 1
  omega

omit grow in
/-- A left child alone leaves the cursor the right half of its words. -/
theorem openWords_leftOnly_cursor (grow : CanGrow s false d) : openWords (newChild s false) s.cursor.toNat = 2 ^ (15 - d) := by
  obtain ⟨-, right⟩ := (childless_iff _).1 grow.bare
  refine openWords_leftOnly ((grow.depthOf_old grow.allocated).trans grow.depth) ?_ ?_ <;> rw [nodeAt_newChild_cursor]
  · simp [withEdge]
  · exact right

theorem openWords_cursor :
    openWords (newChild s b) s.cursor.toNat + openWords (newChild s b) s.alloc.toNat = openWords s s.cursor.toNat := by
  have depth := (grow.depthOf_old grow.allocated).trans grow.depth
  have room := grow.room
  rw [grow.openWords_new]
  cases b with
  | false =>
    rw [grow.openWords_leftOnly_cursor, openWords_childless grow.depth grow.bare, show 16 - d = 15 - d + 1 by omega, pow_succ]
    omega
  | true =>
    rw [openWords_right (by simp [nodeAt_newChild_cursor, withEdge]), openWords_leftOnly grow.depth (grow.leftFirst rfl) grow.free,
      Nat.zero_add]

theorem childCount_cursor : childCount (newChild s b) s.cursor.toNat = childCount s s.cursor.toNat + 1 := by
  have free := grow.free
  rw [here] at free
  cases b <;> simp_all [childCount, nodeAt_newChild_cursor, withEdge, edge, here]
  omega

theorem alloc_lt : s.alloc.toNat + 1 ≤ 131071 := by
  refine grow.tree.alloc_lt_of_spare grow.allocated ?_
  have half := Nat.one_le_two_pow (n := 15 - d)
  have split := grow.openWords_cursor
  rw [grow.openWords_new] at split
  cases b with
  | false =>
    have left := grow.openWords_leftOnly_cursor
    omega
  | true =>
    have one : childCount s s.cursor.toNat = 1 := by
      have left := grow.leftFirst rfl
      have right : (here s).right = none := grow.free
      simp_all [childCount, here, Option.isSome_iff_ne_none]
    omega

theorem alloc_toNat : (newChild s b).alloc.toNat = s.alloc.toNat + 1 := by
  have room := grow.alloc_lt
  have wide : (newChild s b).alloc.toNat = (s.alloc.toNat + 1) % 2 ^ 17 := BitVec.toNat_add _ _
  omega

/-! ### The tree after it -/

theorem linked_old {k : Nat} (old : k < s.alloc.toNat) : Linked (newChild s b) k where
  child c x down := by
    have next := grow.alloc_toNat
    by_cases edited : k = s.cursor.toNat ∧ c = b
    · obtain ⟨rfl, rfl⟩ := edited
      obtain rfl : s.alloc = x := by simpa [nodeAt_newChild_cursor] using down
      refine ⟨old, by omega, ?_⟩
      rw [nodeAt_newChild_alloc old, fresh_parent, BitVec.ofNat_toNat, BitVec.setWidth_eq]
    · have before : edge (nodeAt s k) c = some x := by
        by_cases cursor : k = s.cursor.toNat
        · obtain rfl : c = !b := Bool.eq_not.2 fun same => edited ⟨cursor, same⟩
          rwa [cursor, nodeAt_newChild_cursor, edge_withEdge_other, here, ← cursor] at down
        · rwa [nodeAt_newChild_other old cursor] at down
      obtain ⟨later, inside, up⟩ := (grow.tree.linked k old).child c x before
      exact ⟨later, by omega, by rw [parent_newChild_old inside, up]⟩
  siblings := by
    by_cases cursor : k = s.cursor.toNat
    · subst cursor
      rw [nodeAt_newChild_cursor]
      cases b with
      | false => exact fun right => absurd ((childless_iff _).1 grow.bare).2 right
      | true =>
        refine fun _ => ⟨grow.leftFirst rfl, fun same => ?_⟩
        obtain ⟨-, inside, -⟩ := (grow.tree.linked _ old).child false s.alloc same
        exact absurd inside (lt_irrefl _)
    · rw [nodeAt_newChild_other old cursor]
      exact (grow.tree.linked k old).siblings
  leaf used := by
    rw [used_newChild_old old] at used
    by_cases cursor : k = s.cursor.toNat
    · subst cursor
      exact absurd (used.symm.trans grow.unused) (by simp)
    · rw [nodeAt_newChild_other old cursor]
      exact (grow.tree.linked k old).leaf used
  parent nonroot := by
    obtain ⟨p, up, inside, c, down⟩ := (grow.tree.linked k old).parent nonroot
    exact ⟨p, by rw [parent_newChild_old old, up], by rw [grow.alloc_toNat]; omega, c, grow.edge_old inside down⟩
  depth := by
    rw [grow.depthOf_old old]
    exact (grow.tree.linked k old).depth

theorem linked_new : Linked (newChild s b) s.alloc.toNat := by
  have new : nodeAt (newChild s b) s.alloc.toNat = fresh s.cursor := nodeAt_newChild_alloc grow.allocated
  refine ⟨fun c x down => ?_, fun right => ?_, fun _ => ?_, fun _ => ⟨s.cursor, ?_, ?_, b, ?_⟩, _, grow.depthOf_new⟩
  · simp [new] at down
  · exact absurd (by rw [new]; rfl) right
  · rw [new, childless_fresh]
  · rw [new, fresh_parent]
  · rw [grow.alloc_toNat]
    exact Nat.lt_succ_of_lt grow.allocated
  · rw [nodeAt_newChild_cursor, edge_withEdge_same, BitVec.ofNat_toNat, BitVec.setWidth_eq]

/-- A quantity that is the same at the old nodes other than the cursor sums to what it was plus what the two written nodes make. -/
theorem overNodes_newChild {f g : Nat → Nat} (same : ∀ k, k < s.alloc.toNat → k ≠ s.cursor.toNat → g k = f k) :
    overNodes (newChild s b) g + f s.cursor.toNat = overNodes s f + g s.cursor.toNat + g s.alloc.toNat :=
  overNodes_extend grow.alloc_toNat grow.allocated same

/-- Making a child keeps the tree. -/
theorem tree_newChild : CodeTree (newChild s b) where
  rootParent := (parent_newChild_old grow.tree.alloc_pos).trans grow.tree.rootParent
  rootUnused := (used_newChild_old grow.tree.alloc_pos).trans grow.tree.rootUnused
  linked k hk := by
    rw [grow.alloc_toNat] at hk
    obtain old | rfl := Nat.lt_succ_iff_lt_or_eq.1 hk
    · exact grow.linked_old old
    · exact grow.linked_new
  words := by
    have sum := grow.overNodes_newChild (f := openWords s) (g := openWords (newChild s b)) fun k old ne => by
      rw [openWords, openWords, nodeAt_newChild_other old ne, grow.depthOf_old old]
    have split := grow.openWords_cursor
    have words := grow.tree.words
    omega
  edges := by
    have sum := grow.overNodes_newChild (f := childCount s) (g := childCount (newChild s b)) fun k old ne => by
      rw [childCount, childCount, nodeAt_newChild_other old ne]
    have cursor := grow.childCount_cursor
    have new : childCount (newChild s b) s.alloc.toNat = 0 := by rw [childCount, nodeAt_newChild_alloc grow.allocated]; rfl
    have edges := grow.tree.edges
    have next := grow.alloc_toNat
    omega

/-- The node memory lists the new node after the others. -/
theorem memory_newChild (memory : MemoryOk s) : MemoryOk (newChild s b) := by
  have appended : MemoryOk { setNode s s.alloc.toNat (fresh s.cursor) with alloc := s.alloc + 1 } :=
    memory.appendNode (fresh s.cursor) grow.alloc_toNat rfl rfl
  have inside : s.cursor.toNat < (s.alloc + 1).toNat := lt_of_lt_of_eq (Nat.lt_succ_of_lt grow.allocated) grow.alloc_toNat.symm
  exact (appended.setNode (withEdge (here s) b s.alloc) inside).of_same rfl rfl rfl

/-- The new node is not used, so the number of used nodes stays. -/
theorem usedCount_newChild : usedCount (newChild s b) = usedCount s := by
  have sum := grow.overNodes_newChild (f := fun k => (nodeAt s k).used.toNat) (g := fun k => (nodeAt (newChild s b) k).used.toNat)
    fun k old _ => by rw [used_newChild_old old]
  simp only [used_newChild_old grow.allocated, nodeAt_newChild_alloc grow.allocated] at sum
  exact Nat.add_right_cancel sum

end CanGrow

end Sys2Proof.Machine
end

section
/-! SUPPORT. The walk of a build (R97) and the idle block (R13(g), R118) with named conditions, and that each engine step keeps
them. -/

namespace Sys2Proof.Machine

/-! ## The two phases of the invariant -/

/-- What `buildNodeOk` says of node `k` (R97(e), (f)). -/
structure Walked (s : State) (k : Nat) : Prop where
  shallow : childless (nodeAt s k) = false → (depthOf s k).getD 0 ≤ s.i.toNat
  leaf : k ≠ 0 → childless (nodeAt s k) = true → (nodeAt s k).used = false → k = s.cursor.toNat
  stamp : (nodeAt s k).visited.toNat ≤ s.order.toNat

theorem buildNodeOk_iff (s : State) (k : Nat) : buildNodeOk s k = true ↔ Walked s k := by
  simp only [buildNodeOk, Bool.and_eq_true, Bool.or_eq_true, Bool.not_eq_true', beq_iff_eq, decide_eq_true_eq]
  constructor
  · rintro ⟨⟨shallow, leaf⟩, stamp⟩
    exact ⟨fun inner => shallow.resolve_left (by simp [inner]), fun ne bare unused => by simp_all, stamp⟩
  · rintro ⟨shallow, leaf, stamp⟩
    refine ⟨⟨?_, ?_⟩, stamp⟩
    · cases inner : childless (nodeAt s k)
      · exact .inr (shallow inner)
      · exact .inl rfl
    · by_contra none
      simp only [not_or, Bool.not_eq_false, Bool.not_eq_true] at none
      obtain ⟨⟨⟨ne, bare⟩, unused⟩, other⟩ := none
      exact other (leaf ne bare unused)

/-- What `BuildOk` says (R97, R46). -/
structure Walk (s : State) : Prop where
  bucket : s.i.toNat ≤ s.nlen.toNat
  buckets : s.nlen.toNat ≤ 16
  depthLe : s.i.toNat < s.nlen.toNat → s.depth.toNat ≤ s.i.toNat + 1
  atRoot : s.i.toNat = s.nlen.toNat ∨ cntAt s s.i.toNat = 0 → s.depth = 0 ∧ s.cursor = 0
  allocated : s.cursor.toNat < s.alloc.toNat
  depth : depthOf s s.cursor.toNat = some s.depth.toNat
  unused : (here s).used = false
  pass : s.order.toNat = s.vidx.toNat + 1
  placed : s.vidx.toNat = usedCount s
  node : ∀ k, k < s.alloc.toNat → Walked s k
  counts : ∀ k : Fin 16, s.cnt[k].toNat ≤ s.len[k].toNat
  derr : s.derr = false
  berr : s.berr = none
  built : s.built = false
  result : s.result = noSymbol

theorem buildOk_iff (s : State) : BuildOk s ↔ Walk s := by
  simp only [BuildOk, buildNodeOk_iff]
  exact ⟨fun ⟨a, b, c, d, e, f, g, h, i, j, k, l, m, n, o⟩ => ⟨a, b, c, d, e, f, g, h, i, j, k, l, m, n, o⟩,
    fun ⟨a, b, c, d, e, f, g, h, i, j, k, l, m, n, o⟩ => ⟨a, b, c, d, e, f, g, h, i, j, k, l, m, n, o⟩⟩

/-- The invariant of a block that is building. -/
structure Building (s : State) : Prop where
  phase : s.phase = .build
  memory : MemoryOk s
  tree : CodeTree s
  walk : Walk s

theorem Building.of_inv {s : State} (inv : Inv s) (phase : s.phase = .build) : Building s := by
  obtain ⟨memory, tree, -, build, -⟩ := inv
  exact ⟨phase, memory, (treeOk_iff s).1 tree, (buildOk_iff s).1 (build phase)⟩

theorem Building.inv {s : State} (h : Building s) : Inv s := by
  obtain ⟨phase, memory, tree, walk⟩ := h
  refine ⟨memory, (treeOk_iff s).2 tree, ?_, fun _ => (buildOk_iff s).2 walk, by simp [phase]⟩
  simp [FlagsOk, walk.derr, walk.result, walk.built, phase, noSymbol]

/-- The invariant of a block that is idle. -/
structure Idle (s : State) : Prop where
  phase : s.phase = .idle
  memory : MemoryOk s
  tree : CodeTree s
  flags : FlagsOk s
  leaf : ∀ k, k < s.alloc.toNat → k ≠ 0 → childless (nodeAt s k) = true → (nodeAt s k).used = true
  cursor : s.derr = false → s.cursor.toNat < s.alloc.toNat ∧ (s.cursor = 0 ∨ childless (here s) = false)

theorem idleNodeOk_iff (s : State) (k : Nat) : idleNodeOk s k = true ↔
    (k ≠ 0 → childless (nodeAt s k) = true → (nodeAt s k).used = true) := by
  cases bare : childless (nodeAt s k) <;> simp [idleNodeOk, bare, or_iff_not_imp_left]

theorem Idle.of_inv {s : State} (inv : Inv s) (phase : s.phase = .idle) : Idle s := by
  obtain ⟨memory, tree, flags, -, idle⟩ := inv
  obtain ⟨leaf, cursor⟩ := idle phase
  exact ⟨phase, memory, (treeOk_iff s).1 tree, flags, fun k hk => (idleNodeOk_iff s k).1 (leaf k hk), cursor⟩

theorem Idle.inv {s : State} (h : Idle s) : Inv s :=
  ⟨h.memory, (treeOk_iff s).2 h.tree, h.flags, by simp [h.phase],
    fun _ => ⟨fun k hk => (idleNodeOk_iff s k).2 (h.leaf k hk), h.cursor⟩⟩

/-- An idle block with the bare root, the cursor there and no decode error meets the invariant: after reset and after a failed build. -/
theorem inv_of_bareRoot {s : State} (memory : MemoryOk s) (phase : s.phase = .idle) (nodes : s.nodes = [(0, rootClear)])
    (alloc : s.alloc = 1) (cursor : s.cursor = 0) (derr : s.derr = false) (built : s.built = false) (result : s.result = noSymbol) :
    Inv s := by
  refine Idle.inv ⟨phase, memory, .of_bareRoot nodes alloc, ?_, fun k hk ne => ?_, fun _ => ⟨?_, .inl cursor⟩⟩
  · simp [FlagsOk, derr, result, built, nodes, alloc, noSymbol]
  · rw [alloc] at hk
    exact absurd (Nat.lt_one_iff.1 hk) ne
  · rw [cursor, alloc]
    decide

/-! ## The engine's steps -/

/-- Between a bucket's first and last placement the cursor has no more than `i` edges above it, unless it is at the bucket's depth. -/
theorem Walk.depth_lt {s : State} (walk : Walk s) (more : s.i.toNat ≠ s.nlen.toNat) (above : s.depth.toNat ≠ s.i.toNat + 1) :
    s.i.toNat < s.nlen.toNat ∧ s.depth.toNat ≤ s.i.toNat ∧ s.i.toNat < 16 ∧ (s.depth + 1).toNat = s.depth.toNat + 1 := by
  have bucket := walk.bucket
  have buckets := walk.buckets
  have depthLe := walk.depthLe (by omega)
  have wide : (s.depth + 1).toNat = (s.depth.toNat + 1) % 2 ^ 5 := BitVec.toNat_add _ _
  omega

/-- The effect of ASCEND to the parent `p` (R93). -/
def ascendTo (s : State) (p : NodeIdx) : State :=
  { setNode s s.cursor.toNat { here s with visited := s.order } with cursor := p, depth := s.depth - 1 }

theorem stepAscend_of_parent {s : State} {p : NodeIdx} (up : (here s).parent = some p) : stepAscend s = ascendTo s p := by
  simp [stepAscend, up, ascendTo]

theorem nodeAt_ascendTo (s : State) (p : NodeIdx) (k : Nat) :
    nodeAt (ascendTo s p) k = if k = s.cursor.toNat then { here s with visited := s.order } else nodeAt s k :=
  nodeAt_of_setNode rfl k

theorem sameLinks_ascendTo (s : State) (p : NodeIdx) : SameLinks s (ascendTo s p) := .of_setNode rfl rfl rfl rfl rfl

theorem used_ascendTo (s : State) (p : NodeIdx) (k : Nat) : (nodeAt (ascendTo s p) k).used = (nodeAt s k).used := by
  rw [nodeAt_ascendTo]
  split
  · next h => rw [h, here]
  · rfl

theorem nodeAt_stepPlace (s : State) (k : Nat) : nodeAt (stepPlace s) k =
    if k = s.cursor.toNat then { here s with value := valAt s s.vidx.toNat, used := true } else nodeAt s k :=
  nodeAt_of_setNode rfl k

theorem used_stepPlace_cursor (s : State) : (nodeAt (stepPlace s) s.cursor.toNat).used = true := by
  rw [nodeAt_stepPlace, if_pos rfl]

theorem used_stepPlace_other {s : State} {k : Nat} (ne : k ≠ s.cursor.toNat) :
    (nodeAt (stepPlace s) k).used = (nodeAt s k).used := by
  rw [nodeAt_stepPlace, if_neg ne]

/-- PLACE uses one node more. -/
theorem usedCount_stepPlace {s : State} (allocated : s.cursor.toNat < s.alloc.toNat) (unused : (here s).used = false) :
    usedCount (stepPlace s) = usedCount s + 1 := by
  have sum := overNodes_change (s := s) (t := stepPlace s) (f := fun k => (nodeAt s k).used.toNat)
    (g := fun k => (nodeAt (stepPlace s) k).used.toNat) rfl allocated fun k _ ne => by rw [used_stepPlace_other ne]
  rw [here] at unused
  simpa [used_stepPlace_cursor, unused, usedCount] using sum

theorem sameLinks_stepPlace (s : State) : SameLinks s (stepPlace s) := .of_setNode rfl rfl rfl rfl rfl

/-- PLACE takes one from the count of its bucket and leaves the others (R87). -/
theorem stepPlace_counts (s : State) (k : Fin 16) :
    (stepPlace s).cnt[k] = if s.i.toNat = k.val then cntAt s s.i.toNat - 1 else s.cnt[k] := by
  change (s.cnt.setIfInBounds s.i.toNat (cntAt s s.i.toNat - 1))[k.val] = _
  rw [Vector.getElem_setIfInBounds]
  rfl

/-- A count that is not 0 does not grow when one is taken from it. -/
theorem stepPlace_counts_le (s : State) (wanted : cntAt s s.i.toNat ≠ 0) (k : Fin 16) :
    (stepPlace s).cnt[k].toNat ≤ s.cnt[k].toNat := by
  rw [stepPlace_counts]
  split
  · next bucket =>
    rw [bucket, cntAt_of_lt s k k.isLt] at wanted ⊢
    have positive : 1 ≤ s.cnt[k.val].toNat := Nat.one_le_iff_ne_zero.2 fun zero => wanted (BitVec.eq_of_toNat_eq zero)
    rw [BitVec.toNat_sub_of_le (by rw [BitVec.le_def]; exact positive)]
    exact Nat.sub_le _ _
  · exact le_refl _

namespace Building

variable {s : State} (h : Building s)
include h

/-- FINISH (R85): every childless node but the root is used, since the cursor is at the root. -/
theorem finish (done : s.i.toNat = s.nlen.toNat) : Inv (stepFinish s) := by
  obtain ⟨phase, memory, tree, walk⟩ := h
  obtain ⟨-, cursor⟩ := walk.atRoot (.inl done)
  refine Idle.inv ⟨rfl, memory, tree.of_nodes rfl rfl, ?_, fun k hk ne bare => ?_, fun _ => ⟨walk.allocated, .inl cursor⟩⟩
  · simp [FlagsOk, stepFinish, walk.derr, walk.result, walk.berr, noSymbol]
  · by_contra unused
    have here := (walk.node k hk).leaf ne bare (Bool.eq_false_of_not_eq_true unused)
    simp [cursor, ne] at here

/-- The two failing steps (R95) leave the bare root. -/
theorem fail (e : BuildError) (walking : e ≠ .tableTooLarge) : Inv (raise (.build e) s) := by
  obtain ⟨-, memory, -, walk⟩ := h
  rw [raise_walk_failure e walking]
  exact inv_of_bareRoot (memory.of_bareRoot rfl rfl rfl) rfl rfl rfl rfl walk.derr walk.built walk.result

/-- SKIP (R86): the walk is at the root, where it may take up the next bucket. -/
theorem skip (more : s.i.toNat ≠ s.nlen.toNat) (empty : cntAt s s.i.toNat = 0) : Building (stepSkip s) := by
  obtain ⟨phase, memory, tree, walk⟩ := h
  obtain ⟨depth, cursor⟩ := walk.atRoot (.inr empty)
  have links : SameLinks s (stepSkip s) := .of_nodes rfl rfl
  have bucket := walk.bucket
  have buckets := walk.buckets
  have next : (stepSkip s).i.toNat = s.i.toNat + 1 := by
    have wide : (stepSkip s).i.toNat = (s.i.toNat + 1) % 2 ^ 5 := BitVec.toNat_add _ _
    omega
  refine ⟨phase, memory, tree.of_nodes rfl rfl, { walk with
    bucket := ?_, depthLe := ?_, atRoot := ?_, depth := ?_, node := ?_ }⟩
  · rw [next]
    exact Nat.lt_of_le_of_ne bucket more
  · intro _
    simp [stepSkip, depth]
  · exact fun _ => ⟨depth, cursor⟩
  · exact (links.depthOf _).trans walk.depth
  · intro k hk
    obtain ⟨shallow, leaf, stamp⟩ := walk.node k hk
    refine ⟨fun inner => ?_, leaf, stamp⟩
    rw [links.depthOf, next]
    exact Nat.le_succ_of_le (shallow inner)

/-- DL_OLD and DR_OLD (R90, R92): the child entered is not used, and the node left has a child. -/
theorem descend {b : Bool} {k : NodeIdx} (more : s.i.toNat ≠ s.nlen.toNat) (wanted : cntAt s s.i.toNat ≠ 0)
    (above : s.depth.toNat ≠ s.i.toNat + 1) (down : edge (here s) b = some k) (unused : (nodeAt s k.toNat).used = false) :
    Building (descend s k) := by
  obtain ⟨phase, memory, tree, walk⟩ := h
  obtain ⟨lt, le, -, depth⟩ := walk.depth_lt more above
  have links : SameLinks s (Machine.descend s k) := .of_nodes rfl rfl
  obtain ⟨-, inside, -⟩ := (tree.linked _ walk.allocated).child b k down
  refine ⟨phase, memory, tree.of_nodes rfl rfl, { walk with
    depthLe := ?_, atRoot := ?_, allocated := inside, depth := ?_, unused := unused, node := ?_ }⟩
  · rintro -
    simp only [descend_depth, descend_i, depth]
    omega
  · rintro (done | empty)
    · exact absurd done more
    · exact absurd empty wanted
  · rw [links.depthOf, descend_cursor, descend_depth, depth]
    exact tree.depthOf_edge walk.allocated walk.depth down
  · intro j hj
    obtain ⟨shallow, leaf, stamp⟩ := walk.node j hj
    refine ⟨fun inner => ?_, fun ne bare spare => ?_, stamp⟩
    · rw [links.depthOf]
      exact shallow inner
    · obtain rfl := leaf ne bare spare
      exact absurd (bare.symm.trans (childless_false_of_edge down)) (by simp)

/-- The node a child is made under (R89, R91) has its depth in the tree, room below, and no value. -/
theorem canGrow {b : Bool} (more : s.i.toNat ≠ s.nlen.toNat) (above : s.depth.toNat ≠ s.i.toNat + 1)
    (free : edge (here s) b = none) (leftFirst : b = true → (here s).left ≠ none) : CanGrow s b s.depth.toNat := by
  obtain ⟨-, -, tree, walk⟩ := h
  obtain ⟨-, le, small, -⟩ := walk.depth_lt more above
  exact ⟨tree, walk.allocated, walk.depth, Nat.lt_of_le_of_lt le small, free, leftFirst, walk.unused⟩

/-- DL_NEW and DR_NEW (R89, R91): the new node is the end of the chain, and the node it hangs from is no deeper than the bucket. -/
theorem newChild {b : Bool} (more : s.i.toNat ≠ s.nlen.toNat) (wanted : cntAt s s.i.toNat ≠ 0)
    (above : s.depth.toNat ≠ s.i.toNat + 1) (free : edge (here s) b = none) (leftFirst : b = true → (here s).left ≠ none) :
    Building (newChild s b) := by
  have grow := h.canGrow more above free leftFirst
  obtain ⟨phase, memory, tree, walk⟩ := h
  obtain ⟨lt, le, -, depth⟩ := walk.depth_lt more above
  have new := nodeAt_newChild_alloc (b := b) walk.allocated
  have next := grow.alloc_toNat
  refine ⟨phase, grow.memory_newChild memory, grow.tree_newChild, { walk with
    depthLe := ?_, atRoot := ?_, allocated := ?_, depth := ?_, unused := ?_, placed := ?_, node := ?_ }⟩
  · rintro -
    change (s.depth + 1).toNat ≤ s.i.toNat + 1
    omega
  · rintro (done | empty)
    · exact absurd done more
    · exact absurd empty wanted
  · exact next ▸ Nat.lt_succ_self _
  · exact grow.depthOf_new.trans (congrArg some depth.symm)
  · exact congrArg Node.used new
  · exact walk.placed.trans grow.usedCount_newChild.symm
  · intro k hk
    rw [next] at hk
    obtain old | rfl := Nat.lt_succ_iff_lt_or_eq.1 hk
    · obtain ⟨-, used, visited⟩ := nodeAt_newChild_old (b := b) old
      obtain ⟨shallow, leaf, stamp⟩ := walk.node k old
      by_cases cursor : k = s.cursor.toNat
      · subst cursor
        refine ⟨fun _ => ?_, fun _ bare => ?_, visited ▸ stamp⟩
        · rw [grow.depthOf_old old, walk.depth]
          exact le
        · simp [childless_newChild_cursor] at bare
      · have same := nodeAt_newChild_other (b := b) old cursor
        refine ⟨fun inner => ?_, fun ne bare unused => ?_, visited ▸ stamp⟩
        · rw [grow.depthOf_old old]
          exact shallow (same ▸ inner)
        · exact absurd (leaf ne (same ▸ bare) (same ▸ unused)) cursor
    · refine ⟨fun inner => ?_, fun _ _ _ => rfl, ?_⟩
      · simp [new] at inner
      · rw [new]
        exact Nat.zero_le _

/-- ASCEND (R93): the parent has a child, so it is not used; the node left has a child too. -/
theorem ascend {p : NodeIdx} (more : s.i.toNat ≠ s.nlen.toNat) (wanted : cntAt s s.i.toNat ≠ 0)
    (inner : childless (here s) = false) (up : (here s).parent = some p) : Building (ascendTo s p) := by
  obtain ⟨phase, memory, tree, walk⟩ := h
  obtain ⟨inside, fertile⟩ := tree.parent_allocated walk.allocated up
  obtain ⟨e, deep, parentDepth⟩ := depthOf_parent up walk.depth
  have links := sameLinks_ascendTo s p
  have used := used_ascendTo s p
  have depth : (s.depth - 1).toNat = e := by
    rw [BitVec.toNat_sub_of_le (by rw [BitVec.le_def, deep]; exact Nat.succ_pos e), deep]
    rfl
  have barren : ∀ k, k < s.alloc.toNat → (nodeAt s k).used = true → childless (nodeAt s k) = true :=
    fun k hk => (tree.linked k hk).leaf
  refine ⟨phase, (memory.setNode _ walk.allocated).of_same rfl rfl rfl,
    tree.of_sameLinks links fun k hk busy => ⟨?_, ?_⟩, { walk with
    depthLe := fun lt => ?_, atRoot := ?_, allocated := inside, depth := ?_, unused := ?_, placed := ?_, node := fun k hk => ?_ }⟩
  · rintro rfl
    simp [used, tree.rootUnused] at busy
  · exact barren k hk (used k ▸ busy)
  · have le := walk.depthLe lt
    change (s.depth - 1).toNat ≤ s.i.toNat + 1
    omega
  · rintro (done | empty)
    · exact absurd done more
    · exact absurd empty wanted
  · change Machine.depthOf (ascendTo s p) p.toNat = some (s.depth - 1).toNat
    rw [links.depthOf, parentDepth, depth]
  · change (nodeAt (ascendTo s p) p.toNat).used = false
    rw [used]
    exact Bool.eq_false_of_not_eq_true fun busy => absurd ((barren _ inside busy).symm.trans fertile) (by simp)
  · exact walk.placed.trans (overNodes_congr rfl fun j _ => by rw [used]).symm
  · obtain ⟨shallow, leaf, stamp⟩ := walk.node k hk
    refine ⟨fun has => ?_, fun ne bare unused => ?_, ?_⟩
    · rw [links.depthOf]
      exact shallow (links.childless k ▸ has)
    · rw [links.childless] at bare
      obtain rfl := leaf ne bare (used k ▸ unused)
      exact absurd (bare.symm.trans inner) (by simp)
    · rw [nodeAt_ascendTo]
      split
      · exact le_refl _
      · exact stamp

/-- At the bucket's depth the cursor is at a childless node other than the root (R97(e)). -/
theorem cursor_leaf (deep : s.depth.toNat = s.i.toNat + 1) : s.cursor.toNat ≠ 0 ∧ childless (here s) = true := by
  obtain ⟨-, -, tree, walk⟩ := h
  constructor
  · intro root
    have depth := walk.depth
    rw [root, depthOf_root tree.rootParent, deep] at depth
    simp at depth
  · by_contra inner
    have shallow := (walk.node _ walk.allocated).shallow (Bool.eq_false_of_not_eq_true inner)
    rw [walk.depth, Option.getD_some] at shallow
    omega

/-- PLACE (R87): a childless node other than the root becomes used, and the next pass starts at the root. -/
theorem place (wanted : cntAt s s.i.toNat ≠ 0) (deep : s.depth.toNat = s.i.toNat + 1) : Building (stepPlace s) := by
  obtain ⟨nonroot, bare⟩ := h.cursor_leaf deep
  obtain ⟨phase, memory, tree, walk⟩ := h
  have links := sameLinks_stepPlace s
  have at_cursor := used_stepPlace_cursor s
  have used := fun k => used_stepPlace_other (s := s) (k := k)
  have few := tree.usedCount_lt walk.allocated bare walk.unused
  have placed := walk.placed
  have pass := walk.pass
  have vidx : (stepPlace s).vidx.toNat = (s.vidx.toNat + 1) % 2 ^ 17 := BitVec.toNat_add _ _
  have order : (stepPlace s).order.toNat = (s.order.toNat + 1) % 2 ^ 17 := BitVec.toNat_add _ _
  have count := usedCount_stepPlace walk.allocated walk.unused
  refine ⟨phase, (memory.setNode _ walk.allocated).of_same rfl rfl rfl, tree.of_sameLinks links fun k hk busy => ?_, { walk with
    depthLe := fun _ => Nat.zero_le _, atRoot := fun _ => ⟨rfl, rfl⟩, allocated := tree.alloc_pos, depth := ?_, unused := ?_,
    pass := ?_, placed := ?_, node := fun k hk => ?_, counts := fun k => ?_ }⟩
  · by_cases cursor : k = s.cursor.toNat
    · exact cursor ▸ ⟨nonroot, bare⟩
    · rw [used k cursor] at busy
      refine ⟨?_, (tree.linked k hk).leaf busy⟩
      rintro rfl
      simp [tree.rootUnused] at busy
  · exact (links.depthOf 0).trans (depthOf_root tree.rootParent)
  · exact (used 0 nonroot.symm).trans tree.rootUnused
  · omega
  · omega
  · obtain ⟨shallow, leaf, stamp⟩ := walk.node k hk
    refine ⟨fun inner => ?_, fun ne barren unused => ?_, ?_⟩
    · rw [links.depthOf]
      exact shallow (links.childless k ▸ inner)
    · by_cases cursor : k = s.cursor.toNat
      · simp [cursor, at_cursor] at unused
      · exact absurd (leaf ne (links.childless k ▸ barren) (used k cursor ▸ unused)) cursor
    · have stamp : (nodeAt (stepPlace s) k).visited.toNat ≤ s.order.toNat := by
        rw [nodeAt_stepPlace]
        split
        · next cursor => rwa [cursor] at stamp
        · exact stamp
      omega
  · exact (stepPlace_counts_le s wanted k).trans (walk.counts k)

end Building

end Sys2Proof.Machine
end

section
/-! SUPPORT. Every event keeps the invariant (R13, R15, R16, R97, R118, R121): the engine's turn, the commands, register writes and the
reset, put together for one step. -/

namespace Sys2Proof.Machine

/-! ## The engine's turn -/

theorem not_used_of_enterable {s : State} {k : NodeIdx} (h : enterable s k = true) : (nodeAt s k.toNat).used = false := by
  simp only [enterable, Bool.and_eq_true, Bool.not_eq_true'] at h
  exact h.1

theorem stepDlOld_of_left {s : State} {l : NodeIdx} (left : (here s).left = some l) : stepDlOld s = descend s l := by
  simp [stepDlOld, left]

theorem stepDrOld_of_right {s : State} {r : NodeIdx} (right : (here s).right = some r) : stepDrOld s = descend s r := by
  simp [stepDrOld, right]

/-- Whichever test of the dispatch table holds, the step it names keeps the invariant. -/
theorem Building.inv_engineEffect {s : State} (h : Building s) : Inv (engineEffect (engineChoice s) s) := by
  obtain ⟨done, choice⟩ | ⟨more, empty, choice⟩ | ⟨more, wanted, ⟨deep, -, choice⟩ | ⟨-, -, choice⟩ | ⟨above,
    ⟨left, choice⟩ | ⟨l, left, ⟨enter, choice⟩ | ⟨-, ⟨right, choice⟩ | ⟨r, right, ⟨enter, choice⟩ | ⟨-,
    ⟨p, up, choice⟩ | ⟨-, choice⟩⟩⟩⟩⟩⟩⟩ := engineChoice_cases s <;> rw [choice, engineEffect]
  · exact h.finish done
  · exact (h.skip more empty).inv
  · exact (h.place wanted deep).inv
  · exact h.fail .tooFewValues (by decide)
  · rw [stepDlNew_eq]
    exact (h.newChild (b := false) more wanted above left (by simp)).inv
  · rw [stepDlOld_of_left left]
    exact (h.descend (b := false) more wanted above left (not_used_of_enterable enter)).inv
  · rw [stepDrNew_eq]
    exact (h.newChild (b := true) more wanted above right (by simp [left])).inv
  · rw [stepDrOld_of_right right]
    exact (h.descend (b := true) more wanted above right (not_used_of_enterable enter)).inv
  · rw [stepAscend_of_parent up]
    exact (h.ascend more wanted (childless_false_of_edge (b := false) left) up).inv
  · exact h.fail .infeasible (by decide)

theorem inv_engineTurn {s : State} (inv : Inv s) : Inv (engineTurn s) := by
  cases phase : s.phase with
  | idle => rwa [engineTurn_idle s phase]
  | build =>
    rw [engineTurn_build s phase]
    exact (Building.of_inv inv phase).inv_engineEffect

/-! ## The commands -/

/-- While BUSY a command changes nothing (R46, R80, R110). -/
theorem exec_busy (i : Instr) (s : State) (h : s.phase = .build) : exec i s = .next s := by
  cases i <;> simp [exec, execBuild, execMove, execRestart, busy, h]

namespace Idle

variable {s : State} (h : Idle s)
include h

/-- BUILD start (R81 to R83): the bare root, with no node entered and nothing placed yet. -/
theorem buildStart : Inv (buildStart s) := by
  obtain ⟨large, start⟩ | ⟨fits, start⟩ := buildStart_cases s <;> rw [start]
  · exact inv_of_bareRoot (h.memory.of_bareRoot rfl rfl rfl) rfl rfl rfl rfl rfl rfl rfl
  · have tree : CodeTree (walkInit (buildClear s)) := .of_bareRoot rfl rfl
    have only : ∀ k, k < (walkInit (buildClear s)).alloc.toNat → k = 0 := fun k hk => Nat.lt_one_iff.1 hk
    refine Building.inv ⟨rfl, h.memory.of_bareRoot rfl rfl rfl, tree, ?_⟩
    exact {
      bucket := Nat.zero_le _
      buckets := fits
      depthLe := fun _ => Nat.zero_le _
      atRoot := fun _ => ⟨rfl, rfl⟩
      allocated := tree.alloc_pos
      depth := depthOf_root tree.rootParent
      unused := rfl
      pass := rfl
      placed := rfl
      node := fun k hk => by
        obtain rfl := only k hk
        exact ⟨fun inner => Bool.noConfusion inner, fun ne => absurd rfl ne, Nat.zero_le _⟩
      counts := fun k => by
        change ((loadedCounts s.nlen s.len)[k.val]).toNat ≤ _
        rw [loadedCounts_getElem _ _ _ k.isLt]
        split
        · exact le_refl _
        · exact Nat.zero_le _
      derr := rfl
      berr := rfl
      built := rfl
      result := rfl }

/-- A decoder's answer keeps the invariant when RESULT and DERR agree (R21) and, without DERR, the cursor is at the root or at an
internal node (R118). -/
theorem decoded (c : NodeIdx) (e : Bool) (r : MoveResult) (n : Nat) (latched : e = r.err)
    (exclusive : ¬(r.err = true ∧ r.sv = true)) (symbol : r.sv = false → r.sym = 0)
    (cursor : e = false → c.toNat < s.alloc.toNat ∧ (c = 0 ∨ childless (nodeAt s c.toNat) = false)) :
    Inv { s with cursor := c, derr := e, result := r, draws := n } := by
  obtain ⟨-, -, -, success, untouched⟩ := h.flags
  exact Idle.inv { h with
    tree := h.tree.of_nodes rfl rfl, flags := ⟨latched, exclusive, symbol, success, untouched⟩, cursor := cursor }

/-- MOVE (R110) either latches DERR or lands on the root or on an internal node. -/
theorem moveStep (b : Bool) : Inv (moveStep b s) := by
  obtain ⟨derr, move⟩ | ⟨derr, -, move⟩ | ⟨derr, k, down, ⟨-, move⟩ | ⟨inner, move⟩⟩ := moveStep_cases b s
  all_goals rw [move]
  · exact h.decoded s.cursor s.derr invalidResult s.draws derr (by simp [invalidResult]) (fun _ => rfl) (by simp [derr])
  · exact h.decoded (Config.lostCursor s.draws) true invalidResult (s.draws + 1) rfl (by simp [invalidResult])
      (fun _ => rfl) (by simp)
  · exact h.decoded 0 s.derr (symbolResult (nodeAt s k.toNat).value) s.draws derr (by simp [symbolResult])
      (by simp [symbolResult]) fun _ => ⟨h.tree.alloc_pos, .inl rfl⟩
  · obtain ⟨allocated, -⟩ := h.cursor derr
    obtain ⟨-, inside, -⟩ := (h.tree.linked _ allocated).child b k down
    exact h.decoded k s.derr noSymbol s.draws derr (by simp [noSymbol]) (fun _ => rfl) fun _ => ⟨inside, .inr inner⟩

/-- RESTART (R117) is at the root. -/
theorem clearDecoder : Inv (clearDecoder s) :=
  h.decoded 0 false noSymbol s.draws rfl (by simp [noSymbol]) (fun _ => rfl) fun _ => ⟨h.tree.alloc_pos, .inl rfl⟩

end Idle

/-- A command that is answered keeps the invariant, whichever it is and in either phase. -/
theorem inv_exec {s t : State} {i : Instr} (inv : Inv s) (answer : exec i s = .next t) : Inv t := by
  cases phase : s.phase with
  | build =>
    rw [exec_busy i s phase] at answer
    cases answer
    exact inv
  | idle =>
    have idle := Idle.of_inv inv phase
    rw [exec_idle i s phase] at answer
    cases i <;> cases answer
    · exact idle.buildStart
    · exact idle.moveStep _
    · exact idle.clearDecoder

/-! ## Register writes, reads and the reset -/

/-- The entries of a memory after a write. -/
theorem mem_store {α : Type} {m : List (Nat × α)} {k : Nat} {x : α} {c : Nat × α} (h : c ∈ store m k x) :
    c = (k, x) ∨ c ∈ m := by
  induction m with
  | nil => exact .inl (List.mem_singleton.1 h)
  | cons e m ih =>
    obtain ⟨a, y⟩ := e
    rw [store] at h
    split at h
    · exact List.mem_cons.1 h
    · split at h
      · exact (List.mem_cons.1 h).imp_right (List.mem_cons_of_mem _)
      · obtain rfl | tail := List.mem_cons.1 h
        · exact .inr List.mem_cons_self
        · exact (ih tail).imp_right (List.mem_cons_of_mem _)

theorem MemoryOk.setVal {s : State} (memory : MemoryOk s) {k : Nat} (v : Sym) (inside : k < 65536) : MemoryOk (setVal s k v) := by
  obtain ⟨wf, valsWf, bound, keys⟩ := memory
  refine ⟨wf, memoryWf_setVal s k v valsWf, fun c hc => ?_, keys⟩
  obtain rfl | old := mem_store hc
  · exact inside
  · exact bound c old

/-- The VAL entries a host can name are the 65536 of R18. -/
theorem val_index_lt {off k : Nat} (inside : off < 524288) (h : regAt off = .val k) : k < 65536 := by
  unfold regAt at h
  repeat' split at h
  all_goals cases h
  omega

/-- A register write on an idle block changes the table registers only, of which the invariant bounds VAL's indices (R16). -/
theorem inv_writeReg {s : State} (idle : Idle s) {off : Nat} (v : Word) (inside : off < 524288) :
    Inv (writeReg s (regAt off) v) := by
  have memory : MemoryOk (writeReg s (regAt off) v) := by
    cases reg : regAt off
    case val k => exact idle.memory.setVal _ (val_index_lt inside reg)
    all_goals exact idle.memory
  rw [writeReg_writes] at memory ⊢
  exact Idle.inv { idle with memory := memory, tree := idle.tree.of_nodes rfl rfl }

theorem inv_hostWrite {s : State} {off : Nat} (v : Word) (inv : Inv s) (inside : off < 524288) : Inv (hostWrite off v s) := by
  obtain ⟨-, write⟩ | ⟨phase, write⟩ := hostWrite_cases off v s <;> rw [write]
  · exact inv
  · exact inv_writeReg (.of_inv inv phase) v inside

theorem phase_cases (s : State) : s.phase = .idle ∨ s.phase = .build := by
  cases s.phase <;> simp

/-- The invariant does not look at the events to come nor at the word last read (log 1, log 2). -/
theorem inv_turns_rdata {s : State} (inv : Inv s) (ts : List Turn) (w : Word) : Inv { s with turns := ts, rdata := w } := by
  have links : SameLinks s { s with turns := ts, rdata := w } := .of_nodes rfl rfl
  obtain phase | phase := phase_cases s
  · have idle := Idle.of_inv inv phase
    exact Idle.inv { idle with tree := idle.tree.of_nodes rfl rfl }
  · obtain ⟨-, memory, tree, walk⟩ := Building.of_inv inv phase
    refine Building.inv ⟨phase, memory, tree.of_nodes rfl rfl, { walk with depth := ?_, node := fun k hk => ?_ }⟩
    · exact (links.depthOf _).trans walk.depth
    · obtain ⟨shallow, leaf, stamp⟩ := walk.node k hk
      exact ⟨links.depthOf k ▸ shallow, leaf, stamp⟩

theorem inv_turns {s : State} (inv : Inv s) (ts : List Turn) : Inv { s with turns := ts } := inv_turns_rdata inv ts s.rdata

/-- The reset input (R160) leaves the bare root and what VAL holds. -/
theorem inv_blockReset {s : State} (inv : Inv s) : Inv (blockReset s) := by
  obtain ⟨memory, -⟩ := inv
  exact inv_of_bareRoot (memory.of_bareRoot rfl rfl rfl) rfl rfl rfl rfl rfl rfl rfl

/-! ## The obligations -/

/-- Settles O47: after reset the tree is the bare root and every flag is clear. -/
theorem resetMeetsTheInvariant : Obligations.ResetMeetsTheInvariant :=
  inv_of_bareRoot ⟨rfl, rfl, by simp [State.reset], rfl⟩ rfl rfl rfl rfl rfl rfl rfl

/-- Settles O48: by the cases of a step, each of which keeps the invariant. -/
theorem everyStepKeepsTheInvariant : Obligations.EveryStepKeepsTheInvariant := by
  intro s t inv answer
  obtain ⟨-, rfl⟩ | ⟨ts, -, rfl⟩ | ⟨ts, -, rfl⟩ | ⟨off, ts, -, -, -, rfl⟩ |
    ⟨off, v, ts, -, -, inside, ⟨i, -, run⟩ | ⟨-, rfl⟩⟩ := step_cases answer
  · exact inv_engineTurn inv
  · exact inv_engineTurn (inv_turns inv ts)
  · exact inv_blockReset (inv_turns inv ts)
  · exact inv_turns_rdata inv ts _
  · exact inv_exec (inv_turns inv ts) run
  · exact inv_hostWrite v (inv_turns inv ts) inside

end Sys2Proof.Machine
end

section
/-! SUPPORT. The table registers (R18): which offset is whose (R41), what a host write to one does, and that nothing but a host write or
a reset changes one (R46). -/

namespace Sys2Proof.Machine

/-! ## The offset of each table register (R41) -/

theorem regAt_eq_nlen_iff (off : Nat) : regAt off = .nlen ↔ off = 0x0000C := by
  unfold regAt
  split_ifs <;> simp <;> omega

theorem regAt_eq_nval_iff (off : Nat) : regAt off = .nval ↔ off = 0x00010 := by
  unfold regAt
  split_ifs <;> simp <;> omega

theorem regAt_eq_len_iff {off : Nat} (aligned : off % 4 = 0) (k : Fin 16) : regAt off = .len k ↔ off = 0x00040 + 4 * k.val := by
  have := k.isLt
  unfold regAt
  split_ifs <;> simp [Fin.ext_iff] <;> omega

theorem regAt_eq_val_iff {off : Nat} (aligned : off % 4 = 0) (k : Nat) : regAt off = .val k ↔ off = 0x40000 + 4 * k := by
  unfold regAt
  split_ifs <;> simp <;> omega

/-! ## A host write to a register -/

/-- On an idle block a write to a register other than CMD is that register write (R43, R45). -/
theorem step_write_register {s : State} {off : Nat} {v : Word} {ts : List Turn} {r : Reg} (idle : s.phase = .idle)
    (next : s.turns = .write off 4 v :: ts) (aligned : off % 4 = 0) (inside : off < 524288) (reg : regAt off = r) (other : r ≠ .cmd) :
    step s = .next (writeReg { s with turns := ts } r v) := by
  have plain : commandOf off v = none := by rw [commandOf, reg, if_neg other]
  rw [step_write_legal next aligned inside, writeAccess, plain]
  obtain ⟨busy, -⟩ | ⟨-, write⟩ := hostWrite_cases off v { s with turns := ts }
  · exact absurd (idle.symm.trans busy) (by decide)
  · simp only [write, reg]

/-- A word cut to `w` bits and read back on the bus keeps its `w` low bits. -/
theorem setWidth_setWidth_eq_and (v : Word) (w : Nat) (narrow : w ≤ 32) :
    (v.setWidth w).setWidth 32 = v &&& BitVec.ofNat 32 (2 ^ w - 1) := by
  apply BitVec.eq_of_toNat_eq
  have fits : 2 ^ w ≤ 2 ^ 32 := Nat.pow_le_pow_right (by omega) narrow
  have positive := Nat.two_pow_pos w
  have cut := Nat.mod_lt v.toNat positive
  rw [BitVec.toNat_setWidth, BitVec.toNat_setWidth, BitVec.toNat_and, BitVec.toNat_ofNat,
    Nat.mod_eq_of_lt (a := 2 ^ w - 1) (by omega), Nat.and_two_pow_sub_one_eq_mod, Nat.mod_eq_of_lt (by omega)]

/-- Settles O11: the write is the register's own, and reading it back cuts the word to the register's width. -/
theorem tableWritesStoreAndReadBack : Obligations.TableWritesStoreAndReadBack := by
  intro s v ts idle
  refine ⟨fun next => ?_, fun next => ?_, fun k next => ?_, fun k small next => ?_⟩
  · exact ⟨_, step_write_register (r := .nlen) idle next (by decide) (by decide) rfl (by simp), rfl,
      setWidth_setWidth_eq_and v 8 (by decide)⟩
  · exact ⟨_, step_write_register (r := .nval) idle next (by decide) (by decide) rfl (by simp), rfl,
      setWidth_setWidth_eq_and v 17 (by decide)⟩
  · have aligned : (0x00040 + 4 * k.val) % 4 = 0 := by omega
    have reg := (regAt_eq_len_iff aligned k).2 rfl
    refine ⟨_, step_write_register idle next aligned (by omega) reg (by simp), rfl, ?_, fun j ne => ?_⟩
    · simpa [readReg, writeReg] using setWidth_setWidth_eq_and v 17 (by decide)
    · simp [readReg, writeReg, Fin.val_ne_of_ne ne.symm]
  · have aligned : (0x40000 + 4 * k) % 4 = 0 := by omega
    have reg := (regAt_eq_val_iff aligned k).2 rfl
    refine ⟨_, step_write_register idle next aligned (by omega) reg (by simp), rfl, ?_, fun j ne => ?_⟩
    · simpa [readReg, writeReg] using setWidth_setWidth_eq_and v 8 (by decide)
    · exact valAt_setVal_other _ _ _ _ ne

/-! ## What keeps the tables -/

/-- The table registers of two states are the same (R18). -/
structure SameTables (s t : State) : Prop where
  nlen : t.nlen = s.nlen
  len : t.len = s.len
  nval : t.nval = s.nval
  vals : t.vals = s.vals

theorem sameTables_engineTurn (s : State) : SameTables s (engineTurn s) := by
  obtain idle | build := phase_cases s
  · rw [engineTurn_idle s idle]
    exact ⟨rfl, rfl, rfl, rfl⟩
  · obtain ⟨nlen, len, nval, vals, -⟩ := engineEffect_frame (engineChoice s) s
    rw [engineTurn_build s build]
    exact ⟨nlen, len, nval, vals⟩

theorem sameTables_exec {s t : State} {i : Instr} (answer : exec i s = .next t) : SameTables s t := by
  obtain idle | build := phase_cases s
  · rw [exec_idle i s idle] at answer
    cases i with
    | build =>
      cases answer
      obtain ⟨-, start⟩ | ⟨-, start⟩ := buildStart_cases s <;> rw [start] <;> exact ⟨rfl, rfl, rfl, rfl⟩
    | move b =>
      obtain rfl : moveStep b s = t := Host.Outcome.next.inj answer
      rw [moveStep_writes]
      exact ⟨rfl, rfl, rfl, rfl⟩
    | restart =>
      cases answer
      exact ⟨rfl, rfl, rfl, rfl⟩
  · rw [exec_busy i s build] at answer
    cases answer
    exact ⟨rfl, rfl, rfl, rfl⟩

/-- Only a reset and a register write on an idle block touch the tables. -/
theorem step_tables {s t : State} (answer : step s = .next t) : SameTables s t ∨ (∃ ts, s.turns = .reset :: ts) ∨
    (s.phase = .idle ∧ ∃ off v ts, s.turns = .write off 4 v :: ts ∧ off % 4 = 0 ∧
      t = writeReg { s with turns := ts } (regAt off) v) := by
  obtain ⟨-, rfl⟩ | ⟨ts, -, rfl⟩ | ⟨ts, next, -⟩ | ⟨off, ts, -, -, -, rfl⟩ |
    ⟨off, v, ts, next, aligned, -, ⟨i, -, run⟩ | ⟨-, rfl⟩⟩ := step_cases answer
  · exact .inl (sameTables_engineTurn s)
  · obtain ⟨nlen, len, nval, vals⟩ := sameTables_engineTurn { s with turns := ts }
    exact .inl ⟨nlen, len, nval, vals⟩
  · exact .inr (.inl ⟨ts, next⟩)
  · exact .inl ⟨rfl, rfl, rfl, rfl⟩
  · obtain ⟨nlen, len, nval, vals⟩ := sameTables_exec run
    exact .inl ⟨nlen, len, nval, vals⟩
  · obtain ⟨-, write⟩ | ⟨idle, write⟩ := hostWrite_cases off v { s with turns := ts } <;> rw [write]
    · exact .inl ⟨rfl, rfl, rfl, rfl⟩
    · exact .inr (.inr ⟨idle, off, v, ts, next, aligned, rfl⟩)

/-! ## Each table register is written at its own offset only -/

theorem eq_nlen_of_writeReg {s : State} {r : Reg} {v : Word} (h : (writeReg s r v).nlen ≠ s.nlen) : r = .nlen := by
  cases r
  case nlen => rfl
  all_goals exact absurd rfl h

theorem eq_nval_of_writeReg {s : State} {r : Reg} {v : Word} (h : (writeReg s r v).nval ≠ s.nval) : r = .nval := by
  cases r
  case nval => rfl
  all_goals exact absurd rfl h

theorem eq_len_of_writeReg {s : State} {r : Reg} {v : Word} {k : Fin 16} (h : (writeReg s r v).len[k] ≠ s.len[k]) : r = .len k := by
  cases r
  case len j =>
    by_contra other
    have ne : j.val ≠ k.val := fun same => other (congrArg Reg.len (Fin.ext same))
    exact h (by simp [writeReg, ne])
  all_goals exact absurd rfl h

theorem eq_val_of_writeReg {s : State} {r : Reg} {v : Word} {k : Nat} (h : valAt (writeReg s r v) k ≠ valAt s k) : r = .val k := by
  cases r
  case val j =>
    by_contra other
    exact h (valAt_setVal_other _ _ _ _ fun same => other (congrArg Reg.val same.symm))
  all_goals exact absurd rfl h

/-- Settles O43: a step that touches the tables is a reset or a register write on an idle block, and that writes the register at its
offset alone. -/
theorem tablesChangeOnlyByHostWrites : Obligations.TablesChangeOnlyByHostWrites := by
  intro s t answer
  obtain ⟨nlen, len, nval, vals⟩ | resets | ⟨idle, off, v, ts, next, aligned, rfl⟩ := step_tables answer
  · exact .inr ⟨fun h => absurd nlen h, fun h => absurd nval h, fun k h => absurd (by rw [len]) h,
      fun k h => absurd (valAt_congr vals k) h⟩
  · exact .inl resets
  · refine .inr ⟨fun h => ⟨idle, v, ts, ?_⟩, fun h => ⟨idle, v, ts, ?_⟩, fun k h => ⟨idle, v, ts, ?_⟩,
      fun k h => ⟨idle, v, ts, ?_⟩⟩
    · rw [next, (regAt_eq_nlen_iff off).1 (eq_nlen_of_writeReg h)]
    · rw [next, (regAt_eq_nval_iff off).1 (eq_nval_of_writeReg h)]
    · rw [next, (regAt_eq_len_iff aligned k).1 (eq_len_of_writeReg h)]
    · rw [next, (regAt_eq_val_iff aligned k).1 (eq_val_of_writeReg h)]

end Sys2Proof.Machine
end

section
/-! SUPPORT. The flags (R20 to R22): the words a host reads them in, and which event sets each. -/

namespace Sys2Proof.Machine

/-! ## STATUS and RESULT as words -/

/-- Bit `k` of a STATUS word, by the field it falls in (R20). -/
theorem getLsbD_statusWord (s : State) (k : Nat) : (statusWord s).getLsbD k =
    (decide (k < 32) && if k < 1 then (BitVec.ofBool (busy s)).getLsbD k
      else if k - 1 < 1 then (BitVec.ofBool s.derr).getLsbD (k - 1)
      else if k - 1 - 1 < 2 then (berrCode s.berr).getLsbD (k - 1 - 1)
      else (BitVec.ofBool s.built).getLsbD (k - 1 - 1 - 2)) := by
  simp only [statusWord, BitVec.getLsbD_setWidth, BitVec.getLsbD_append]

/-- Bit `k` of a RESULT word, by the field it falls in (R21). -/
theorem getLsbD_resultWord (r : MoveResult) (k : Nat) : (resultWord r).getLsbD k =
    (decide (k < 32) && if k < 8 then r.sym.getLsbD k
      else if k - 8 < 1 then (BitVec.ofBool r.sv).getLsbD (k - 8)
      else (BitVec.ofBool r.err).getLsbD (k - 8 - 1)) := by
  simp only [resultWord, BitVec.getLsbD_setWidth, BitVec.getLsbD_append]

theorem busy_iff (s : State) : busy s = true ↔ s.phase = .build := by
  simp [busy]

/-- Settles O10: each bit lies in the field R20 and R21 put it in, and above the last field every bit is 0. -/
theorem statusAndResultBits : Obligations.StatusAndResultBits := by
  intro s
  have status := getLsbD_statusWord s
  have result := getLsbD_resultWord s.result
  refine ⟨?_, (status 1).trans (by simp), ?_, (status 4).trans (by simp), ?_, ?_, (result 8).trans (by simp),
    (result 9).trans (by simp), ?_⟩
  · rw [← busy_iff, readReg, status 0]
    simp
  · refine Eq.trans (b := berrCode s.berr) ?_ ?_
    · ext k hk
      have field : 2 + k < 32 ∧ ¬2 + k < 1 ∧ ¬2 + k - 1 < 1 ∧ 2 + k - 1 - 1 = k := by omega
      rw [BitVec.getElem_extractLsb', readReg, status, ← BitVec.getLsbD_eq_getElem]
      simp only [field, hk, decide_true, Bool.true_and, if_true, if_false]
    · cases s.berr with
      | none => rfl
      | some e => cases e <;> rfl
  · ext k hk
    rw [BitVec.getElem_extractLsb', readReg, status, if_neg (by omega), if_neg (by omega), if_neg (by omega),
      BitVec.getLsbD_of_ge _ _ (by omega), Bool.and_false, BitVec.ofNat_eq_ofNat, BitVec.getElem_zero]
  · ext k hk
    have field : k < 32 := by omega
    rw [BitVec.getElem_extractLsb', readReg, result, ← BitVec.getLsbD_eq_getElem]
    simp [field, hk]
  · ext k hk
    rw [BitVec.getElem_extractLsb', readReg, result, if_neg (by omega), if_neg (by omega), BitVec.getLsbD_of_ge _ _ (by omega),
      Bool.and_false, BitVec.ofNat_eq_ofNat, BitVec.getElem_zero]

/-! ## Idle and reset -/

/-- Settles O14: an idle engine's turn is the state itself. -/
theorem idleBlockStaysAsItIs : Obligations.IdleBlockStaysAsItIs := by
  intro s idle
  refine ⟨fun none => ?_, fun ts next => ?_⟩
  · simp only [step, none, engineTurn_idle s idle]
  · simp only [step, next, engineTurn_idle { s with turns := ts } idle]

/-- Settles O40: `State.reset` field by field, the bucket counts being sixteen zeros. -/
theorem resetState : Obligations.ResetState :=
  ⟨rfl, rfl, rfl, rfl, rfl, rfl, rfl, rfl, by decide, rfl, by decide, rfl, rfl, rfl, rfl, rfl, fun _ => rfl⟩

/-! ## The word of a command -/

/-- A word that decodes is the command's encoding (R61). -/
theorem eq_encode_of_decode? {w : Word} {i : Instr} (h : decode? w = some i) : w = encode i := by
  unfold decode? decode at h
  split at h
  · next build =>
    cases h
    exact build
  · split at h
    · next move =>
      cases h
      have halves : w = w &&& 0xFFFFFFFE#32 ||| w &&& 1#32 := by
        rw [← BitVec.and_or_distrib_left]
        exact BitVec.and_allOnes.symm
      rw [move, BitVec.and_one_eq_setWidth_ofBool_getLsbD] at halves
      rw [halves]
      cases w.getLsbD 0 <;> decide
    · split at h
      · next restart =>
        cases h
        exact restart
      · cases h

end Sys2Proof.Machine
end

section
/-! SUPPORT. Which event sets each flag, ends a build or writes RESULT (R20 to R22, R147). -/

namespace Sys2Proof.Machine

/-! ## What an accepted command does to the flags -/

/-- The outcomes of a command on an idle block. -/
theorem exec_cases {s t : State} {i : Instr} (idle : s.phase = .idle) (answer : exec i s = .next t) :
    (i = .build ∧ 16 < s.nlen.toNat ∧ t = raise (.build .tableTooLarge) (buildClear s)) ∨
    (i = .build ∧ s.nlen.toNat ≤ 16 ∧ t = walkInit (buildClear s)) ∨
    (∃ b, i = .move b ∧ t = moveStep b s) ∨ (i = .restart ∧ t = clearDecoder s) := by
  rw [exec_idle i s idle] at answer
  cases i <;> cases answer
  · obtain ⟨large, start⟩ | ⟨fits, start⟩ := buildStart_cases s
    · exact .inl ⟨rfl, large, start⟩
    · exact .inr (.inl ⟨rfl, fits, start⟩)
  · exact .inr (.inr (.inl ⟨_, rfl, rfl⟩))
  · exact .inr (.inr (.inr ⟨rfl, rfl⟩))

/-- MOVE leaves BERR, BUILT and the phase alone (R110). -/
theorem moveStep_keeps (b : Bool) (s : State) :
    (moveStep b s).berr = s.berr ∧ (moveStep b s).built = s.built ∧ (moveStep b s).phase = s.phase := by
  rw [moveStep_writes]
  exact ⟨rfl, rfl, rfl⟩

section

variable {s t : State} {i : Instr} (idle : s.phase = .idle) (answer : exec i s = .next t)
include idle answer

/-- Of the commands only MOVE along an absent edge sets DERR (R113). -/
theorem exec_sets_derr (clear : s.derr = false) (set : t.derr = true) : ∃ b, i = .move b ∧ edge (here s) b = none := by
  obtain ⟨-, -, rfl⟩ | ⟨-, -, rfl⟩ | ⟨b, rfl, rfl⟩ | ⟨-, rfl⟩ := exec_cases idle answer
  · exact absurd set (by simp [raise])
  · exact absurd set (by simp)
  · refine ⟨b, rfl, ?_⟩
    obtain ⟨derr, -⟩ | ⟨-, absent, -⟩ | ⟨-, k, -, ⟨-, move⟩ | ⟨-, move⟩⟩ := moveStep_cases b s
    · exact absurd (derr.symm.trans clear) (by decide)
    · exact absent
    all_goals
      rw [move] at set
      exact absurd (clear.symm.trans set) (by decide)
  · exact absurd set (by simp)

/-- Of the commands only a BUILD with more than 16 buckets sets BERR (R82). -/
theorem exec_sets_berr {e : BuildError} (set : t.berr = some e) (new : s.berr ≠ some e) :
    i = .build ∧ e = .tableTooLarge ∧ 16 < s.nlen.toNat := by
  obtain ⟨rfl, large, rfl⟩ | ⟨-, -, rfl⟩ | ⟨b, -, rfl⟩ | ⟨-, rfl⟩ := exec_cases idle answer
  · exact ⟨rfl, (Option.some.inj set).symm, large⟩
  · exact absurd set (by simp)
  · obtain ⟨berr, -, -⟩ := moveStep_keeps b s
    exact absurd (berr.symm.trans set) new
  · exact absurd set new

/-- No command sets BUILT (R22). -/
theorem exec_keeps_unbuilt (unbuilt : s.built = false) : t.built = false := by
  obtain ⟨-, -, rfl⟩ | ⟨-, -, rfl⟩ | ⟨b, -, rfl⟩ | ⟨-, rfl⟩ := exec_cases idle answer
  · rfl
  · rfl
  · obtain ⟨-, built, -⟩ := moveStep_keeps b s
    exact built.trans unbuilt
  · exact unbuilt

/-- Of the commands only a BUILD with at most 16 buckets starts a build (R83). -/
theorem exec_starts_build (busy : t.phase = .build) : i = .build ∧ s.nlen.toNat ≤ 16 := by
  obtain ⟨-, -, rfl⟩ | ⟨rfl, fits, -⟩ | ⟨b, -, rfl⟩ | ⟨-, rfl⟩ := exec_cases idle answer
  · cases busy
  · exact ⟨rfl, fits⟩
  · obtain ⟨-, -, phase⟩ := moveStep_keeps b s
    exact absurd (idle.symm.trans (phase.symm.trans busy)) (by decide)
  · exact absurd (idle.symm.trans busy) (by decide)

end

/-! ## What a step does to the flags -/

/-- The flags, the phase and RESULT of two states are the same. -/
structure SameFlags (s t : State) : Prop where
  derr : t.derr = s.derr
  berr : t.berr = s.berr
  built : t.built = s.built
  phase : t.phase = s.phase
  result : t.result = s.result

theorem sameFlags_writeReg (s : State) (r : Reg) (v : Word) : SameFlags s (writeReg s r v) := by
  rw [writeReg_writes]
  exact ⟨rfl, rfl, rfl, rfl, rfl⟩

/-- The next step is the engine's and a build runs (R10). -/
abbrev EngineMoves (s : State) : Prop := s.phase = .build ∧ (s.turns = [] ∨ ∃ ts, s.turns = .engine :: ts)

/-- The flags change in three kinds of step only: a reset, a step of the engine, and a command on an idle block. -/
theorem step_flags {s t : State} (answer : step s = .next t) : SameFlags s t ∨
    ((∃ ts, s.turns = .reset :: ts) ∧ SameFlags State.reset t) ∨
    (EngineMoves s ∧ SameFlags (engineEffect (engineChoice s) s) t) ∨
    (s.phase = .idle ∧ ∃ i ts, s.turns = .write 0x00000 4 (encode i) :: ts ∧ exec i { s with turns := ts } = .next t) := by
  obtain ⟨none, rfl⟩ | ⟨ts, next, rfl⟩ | ⟨ts, next, rfl⟩ | ⟨off, ts, -, -, -, rfl⟩ |
    ⟨off, v, ts, next, -, -, ⟨i, command, run⟩ | ⟨-, rfl⟩⟩ := step_cases answer
  · obtain idle | build := phase_cases s
    · rw [engineTurn_idle s idle]
      exact .inl ⟨rfl, rfl, rfl, rfl, rfl⟩
    · rw [engineTurn_build s build]
      exact .inr (.inr (.inl ⟨⟨build, .inl none⟩, rfl, rfl, rfl, rfl, rfl⟩))
  · obtain idle | build := phase_cases s
    · rw [engineTurn_idle { s with turns := ts } idle]
      exact .inl ⟨rfl, rfl, rfl, rfl, rfl⟩
    · rw [engineTurn_build { s with turns := ts } build, engineEffect_turns]
      exact .inr (.inr (.inl ⟨⟨build, .inr ⟨ts, next⟩⟩, rfl, rfl, rfl, rfl, rfl⟩))
  · exact .inr (.inl ⟨⟨ts, next⟩, rfl, rfl, rfl, rfl, rfl⟩)
  · exact .inl ⟨rfl, rfl, rfl, rfl, rfl⟩
  · obtain ⟨rfl, decodes⟩ := commandOf_some command
    obtain idle | build := phase_cases s
    · exact .inr (.inr (.inr ⟨idle, i, ts, by rw [next, eq_encode_of_decode? decodes], run⟩))
    · rw [exec_busy i { s with turns := ts } build] at run
      cases run
      exact .inl ⟨rfl, rfl, rfl, rfl, rfl⟩
  · obtain ⟨-, write⟩ | ⟨-, write⟩ := hostWrite_cases off v { s with turns := ts } <;> rw [write]
    · exact .inl ⟨rfl, rfl, rfl, rfl, rfl⟩
    · obtain ⟨derr, berr, built, phase, result⟩ := sameFlags_writeReg { s with turns := ts } (regAt off) v
      exact .inl ⟨derr, berr, built, phase, result⟩

/-! ## One lemma for each flag -/

/-- The next event is the write of this word to CMD, and the block is idle (R19, R46). -/
abbrev Accepted (s : State) (w : Word) : Prop := s.phase = .idle ∧ ∃ ts, s.turns = .write 0x00000 4 w :: ts

section

variable {s t : State} (answer : step s = .next t)
include answer

theorem step_sets_derr (clear : s.derr = false) (set : t.derr = true) :
    (Accepted s 0x00000020#32 ∧ (here s).left = none) ∨ (Accepted s 0x00000021#32 ∧ (here s).right = none) := by
  obtain same | ⟨-, same⟩ | ⟨-, same⟩ | ⟨idle, i, ts, next, run⟩ := step_flags answer
  · exact absurd (clear.symm.trans (same.derr.symm.trans set)) (by decide)
  · exact absurd (same.derr.symm.trans set) (by decide)
  · obtain ⟨-, -, -, -, derr, -⟩ := engineEffect_frame (engineChoice s) s
    exact absurd (clear.symm.trans (derr.symm.trans (same.derr.symm.trans set))) (by decide)
  · obtain ⟨b, rfl, absent⟩ := exec_sets_derr (s := { s with turns := ts }) idle run clear set
    cases b
    · exact .inl ⟨⟨idle, ts, next⟩, absent⟩
    · exact .inr ⟨⟨idle, ts, next⟩, absent⟩

theorem step_sets_berr {e : BuildError} (set : t.berr = some e) (new : s.berr ≠ some e) :
    (e = .tableTooLarge ∧ Accepted s 0x00000010#32 ∧ 16 < s.nlen.toNat) ∨
      (e = .tooFewValues ∧ EngineMoves s ∧ engineChoice s = .failTooFewValues) ∨
      (e = .infeasible ∧ EngineMoves s ∧ engineChoice s = .failInfeasible) := by
  obtain same | ⟨-, same⟩ | ⟨moves, same⟩ | ⟨idle, i, ts, next, run⟩ := step_flags answer
  · exact absurd (same.berr.symm.trans set) new
  · exact absurd (same.berr.symm.trans set) (by simp [State.reset])
  · have latched := (engineEffect_flags (engineChoice s) s).1.symm.trans (same.berr.symm.trans set)
    cases choice : engineChoice s
    case failTooFewValues =>
      rw [choice] at latched
      exact .inr (.inl ⟨(Option.some.inj latched).symm, moves, rfl⟩)
    case failInfeasible =>
      rw [choice] at latched
      exact .inr (.inr ⟨(Option.some.inj latched).symm, moves, rfl⟩)
    all_goals
      rw [choice] at latched
      exact absurd latched new
  · obtain ⟨rfl, code, large⟩ := exec_sets_berr (s := { s with turns := ts }) idle run set new
    exact .inl ⟨code, ⟨idle, ts, next⟩, large⟩

theorem step_sets_built (clear : s.built = false) (set : t.built = true) : EngineMoves s ∧ engineChoice s = .finish := by
  obtain same | ⟨-, same⟩ | ⟨moves, same⟩ | ⟨idle, i, ts, next, run⟩ := step_flags answer
  · exact absurd (clear.symm.trans (same.built.symm.trans set)) (by decide)
  · exact absurd (same.built.symm.trans set) (by decide)
  · refine ⟨moves, by_contra fun other => ?_⟩
    have built := (engineEffect_flags (engineChoice s) s).2
    rw [if_neg other] at built
    exact absurd (clear.symm.trans (built.symm.trans (same.built.symm.trans set))) (by decide)
  · have unbuilt := exec_keeps_unbuilt (s := { s with turns := ts }) idle run clear
    exact absurd (unbuilt.symm.trans set) (by decide)

theorem step_starts_build (idle : s.phase = .idle) (busy : t.phase = .build) :
    Accepted s 0x00000010#32 ∧ s.nlen.toNat ≤ 16 := by
  obtain same | ⟨-, same⟩ | ⟨⟨build, -⟩, -⟩ | ⟨-, i, ts, next, run⟩ := step_flags answer
  · exact absurd (idle.symm.trans (same.phase.symm.trans busy)) (by decide)
  · exact absurd (same.phase.symm.trans busy) (by decide)
  · exact absurd (idle.symm.trans build) (by decide)
  · obtain ⟨rfl, fits⟩ := exec_starts_build (s := { s with turns := ts }) idle run busy
    exact ⟨⟨idle, ts, next⟩, fits⟩

theorem step_ends_build (build : s.phase = .build) (idle : t.phase = .idle) : (∃ ts, s.turns = .reset :: ts) ∨ (EngineMoves s ∧
    (engineChoice s = .finish ∨ engineChoice s = .failTooFewValues ∨ engineChoice s = .failInfeasible)) := by
  obtain same | ⟨resets, -⟩ | ⟨moves, same⟩ | ⟨was, -⟩ := step_flags answer
  · exact absurd (build.symm.trans (same.phase.symm.trans idle)) (by decide)
  · exact .inl resets
  · refine .inr ⟨moves, by_contra fun other => ?_⟩
    have phase := engineEffect_phase (engineChoice s) s
    rw [if_neg other] at phase
    exact absurd (build.symm.trans (phase.symm.trans (same.phase.symm.trans idle))) (by decide)
  · exact absurd (was.symm.trans build) (by decide)

theorem step_writes_result (changed : t.result ≠ s.result) : (∃ ts, s.turns = .reset :: ts) ∨ ∃ i, Accepted s (encode i) := by
  obtain same | ⟨resets, -⟩ | ⟨-, same⟩ | ⟨idle, i, ts, next, -⟩ := step_flags answer
  · exact absurd same.result changed
  · exact .inl resets
  · obtain ⟨-, -, -, -, -, result, -⟩ := engineEffect_frame (engineChoice s) s
    exact absurd (same.result.trans result) changed
  · exact .inr ⟨i, idle, ts, next⟩

end

/-- Settles O56, flag by flag. -/
theorem whatSetsTheFlags : Obligations.WhatSetsTheFlags := by
  intro s t answer
  refine ⟨step_sets_derr answer, fun e => step_sets_berr answer, step_sets_built answer, step_starts_build answer,
    step_ends_build answer, fun changed => ?_⟩
  obtain resets | ⟨i, accepted⟩ := step_writes_result answer changed
  · exact .inl resets
  · cases i with
    | build => exact .inr (.inl accepted)
    | move b =>
      cases b
      · exact .inr (.inr (.inl accepted))
      · exact .inr (.inr (.inr (.inl accepted)))
    | restart => exact .inr (.inr (.inr (.inr accepted)))

end Sys2Proof.Machine
end

section
/-! SUPPORT. Host accesses (20_memory.md R40 to R47): the whole register map, what a legal read or write does in either phase, and where
every other access stops. -/

namespace Sys2Proof.Machine

/-! ## The register map (R41) -/

/-- The gaps of the register map hold no register. -/
theorem regAt_eq_unmapped_iff {off : Nat} (aligned : off % 4 = 0) :
    regAt off = .unmapped ↔ 0x00010 < off ∧ off < 0x00040 ∨ 0x00080 ≤ off ∧ off < 0x40000 := by
  unfold regAt
  split_ifs <;> simp <;> omega

/-- Settles O9: the five single registers by computation, LEN, VAL and the gaps by the inverse of the map. -/
theorem registerMap : Obligations.RegisterMap := by
  refine ⟨rfl, rfl, rfl, rfl, rfl, fun k => ?_, fun k _ => ?_, fun off aligned above gap => ?_⟩
  · exact (regAt_eq_len_iff (by omega) k).2 rfl
  · exact (regAt_eq_val_iff (by omega) k).2 rfl
  · exact (regAt_eq_unmapped_iff aligned).2 (by omega)

/-! ## Which accesses exist (R40, R42) -/

theorem legalAccess_iff (off size : Nat) : legalAccess off size = true ↔ size = 4 ∧ off % 4 = 0 ∧ off < 524288 := by
  simp [legalAccess, and_assoc]

/-- An access the interface cannot express gets the same stop whatever it would have done. -/
theorem checkedAccess_stops (off size : Nat) (r : Result) :
    (size ≠ 4 → checkedAccess off size r = .refused .accessNotWord) ∧
    (size = 4 → off % 4 ≠ 0 → checkedAccess off size r = .refused .accessMisaligned) ∧
    (size = 4 → off % 4 = 0 → 524288 ≤ off → checkedAccess off size r = .fault .outsideRegisterSpace) := by
  refine ⟨fun short => ?_, fun word odd => ?_, fun word aligned beyond => ?_⟩
  · rw [checkedAccess, if_pos short]
  · rw [checkedAccess, if_neg (not_not.2 word), if_pos odd]
  · rw [checkedAccess, if_neg (not_not.2 word), if_neg (not_not.2 aligned), Config.regSpaceBytes, if_pos beyond]

/-- Settles O13: a read and a write pass the same check before they have any effect. -/
theorem accessesThatDoNotExistStop : Obligations.AccessesThatDoNotExistStop := by
  intro s off size ts access
  obtain ⟨r, checked⟩ : ∃ r, step s = checkedAccess off size r := by
    obtain next | ⟨v, next⟩ := access <;> rw [step, next] <;> exact ⟨_, rfl⟩
  rw [checked]
  exact checkedAccess_stops off size r

/-! ## A legal access -/

section

variable {s : State} {off : Nat} {ts : List Turn} (legal : legalAccess off 4 = true)
include legal

/-- A legal read, in either phase, takes the event and returns the register's word (R43, R47). -/
theorem step_read_legal (next : s.turns = .read off 4 :: ts) :
    step s = .next { s with turns := ts, rdata := readReg s (regAt off) } := by
  obtain ⟨-, aligned, inside⟩ := (legalAccess_iff off 4).1 legal
  unfold step
  rw [next]
  exact checkedAccess_legal off _ aligned inside

/-- A legal write is answered by its effect. -/
theorem step_write_of_legalAccess {v : Word} (next : s.turns = .write off 4 v :: ts) :
    step s = writeAccess off v { s with turns := ts } := by
  obtain ⟨-, aligned, inside⟩ := (legalAccess_iff off 4).1 legal
  exact step_write_legal next aligned inside

end

/-- Away from CMD a write carries no command (R45). -/
theorem writeAccess_of_register {off : Nat} (other : regAt off ≠ .cmd) (v : Word) (s : State) :
    writeAccess off v s = .next (hostWrite off v s) := by
  rw [writeAccess, commandOf, if_neg other]

theorem hostWrite_busy {s : State} (build : s.phase = .build) (off : Nat) (v : Word) : hostWrite off v s = s := by
  rw [hostWrite, if_pos ((busy_iff s).2 build)]

/-- While BUSY a write changes nothing, whether it carries a command or not (R46). -/
theorem writeAccess_busy {s : State} (build : s.phase = .build) (off : Nat) (v : Word) : writeAccess off v s = .next s := by
  unfold writeAccess
  split
  · next i _ => exact exec_busy i s build
  · rw [hostWrite_busy build]

/-- While BUSY a legal write is only taken off the events (R46). -/
theorem step_write_busy {s : State} {off : Nat} {v : Word} {ts : List Turn} (build : s.phase = .build)
    (legal : legalAccess off 4 = true) (next : s.turns = .write off 4 v :: ts) : step s = .next { s with turns := ts } := by
  rw [step_write_of_legalAccess legal next]
  exact writeAccess_busy (s := { s with turns := ts }) build off v

/-! ## While a build runs (R46) -/

/-- Under the invariant the flags and RESULT of a building block are those BUILD start left. -/
theorem Building.flag_words {s : State} (h : Building s) : readReg s .status = 1 ∧ readReg s .result = 0 := by
  obtain ⟨build, -, -, walk⟩ := h
  constructor
  · rw [readReg, statusWord, (busy_iff s).2 build, walk.derr, walk.berr, walk.built]
    rfl
  · rw [readReg, walk.result]
    rfl

/-- Settles O8: writes and reads by the rules above, the table words because zero extension keeps a number, STATUS and RESULT by the
invariant of the walk. -/
theorem busyBlockIgnoresWritesAndServesReads : Obligations.BusyBlockIgnoresWritesAndServesReads := by
  intro s ts off build legal
  refine ⟨fun v => step_write_busy build legal, step_read_legal legal, ?_, ?_, fun k => ?_, fun k => ?_,
    fun inv => (Building.of_inv inv build).flag_words⟩
  all_goals exact BitVec.toNat_setWidth_of_le (by decide)

/-! ## Reserved bits, read-only registers and unmapped offsets (R43) -/

/-- Above its own width a word put on the bus is 0. -/
theorem setWidth_ushiftRight_width {w : Nat} (x : BitVec w) (narrow : w ≤ 32) : x.setWidth 32 >>> w = 0 := by
  rw [← BitVec.setWidth_ushiftRight narrow, BitVec.ushiftRight_eq_zero le_rfl, BitVec.setWidth_zero]
  rfl

/-- Two words with the same `w` low bits are cut to the same `w`-bit value. -/
theorem setWidth_eq_of_and_eq {v v' : Word} (w : Nat) (narrow : w ≤ 32)
    (agree : v &&& BitVec.ofNat 32 (2 ^ w - 1) = v' &&& BitVec.ofNat 32 (2 ^ w - 1)) : v.setWidth w = v'.setWidth w := by
  rw [← setWidth_setWidth_eq_and v w narrow, ← setWidth_setWidth_eq_and v' w narrow] at agree
  have back := congrArg (BitVec.setWidth w) agree
  simpa only [BitVec.setWidth_setWidth_of_le _ narrow, BitVec.setWidth_eq] using back

/-- A write to a register that holds nothing a host can write changes nothing. -/
theorem hostWrite_readOnly {off : Nat} (fixed : regAt off = .status ∨ regAt off = .result ∨ regAt off = .unmapped) (v : Word)
    (s : State) : hostWrite off v s = s := by
  obtain ⟨-, write⟩ | ⟨-, write⟩ := hostWrite_cases off v s
  · exact write
  · obtain reg | reg | reg := fixed <;> rw [write, reg] <;> rfl

/-- A write that carries no command leaves the flags alone. -/
theorem sameFlags_hostWrite (off : Nat) (v : Word) (s : State) : SameFlags s (hostWrite off v s) := by
  obtain ⟨-, write⟩ | ⟨-, write⟩ := hostWrite_cases off v s <;> rw [write]
  · exact ⟨rfl, rfl, rfl, rfl, rfl⟩
  · exact sameFlags_writeReg s (regAt off) v

/-- The words `v` and `v'` agree in the bits that register `r` holds (R18). -/
abbrev AgreeBelowWidth (r : Reg) (v v' : Word) : Prop :=
  (r = .nlen ∧ v &&& 0xFF#32 = v' &&& 0xFF#32) ∨ ((∃ k, r = .val k) ∧ v &&& 0xFF#32 = v' &&& 0xFF#32) ∨
    (r = .nval ∧ v &&& 0x1FFFF#32 = v' &&& 0x1FFFF#32) ∨ ((∃ k, r = .len k) ∧ v &&& 0x1FFFF#32 = v' &&& 0x1FFFF#32)

theorem AgreeBelowWidth.ne_cmd {r : Reg} {v v' : Word} (agree : AgreeBelowWidth r v v') : r ≠ .cmd := by
  obtain ⟨rfl, -⟩ | ⟨⟨k, rfl⟩, -⟩ | ⟨rfl, -⟩ | ⟨⟨k, rfl⟩, -⟩ := agree <;> simp

/-- The bits above a register's width have no effect. -/
theorem writeReg_congr {r : Reg} {v v' : Word} (agree : AgreeBelowWidth r v v') (s : State) : writeReg s r v = writeReg s r v' := by
  obtain ⟨rfl, low⟩ | ⟨⟨k, rfl⟩, low⟩ | ⟨rfl, low⟩ | ⟨⟨k, rfl⟩, low⟩ := agree <;> unfold writeReg
  · rw [setWidth_eq_of_and_eq 8 (by decide) low]
  · rw [setWidth_eq_of_and_eq 8 (by decide) low]
  · rw [setWidth_eq_of_and_eq 17 (by decide) low]
  · rw [setWidth_eq_of_and_eq 17 (by decide) low]

/-- The bits no register holds read 0. -/
theorem reserved_bits_read_zero (s : State) :
    readReg s .cmd = 0 ∧ readReg s .unmapped = 0 ∧ readReg s .status >>> 5 = 0 ∧ readReg s .result >>> 10 = 0 ∧
      readReg s .nlen >>> 8 = 0 ∧ readReg s .nval >>> 17 = 0 ∧ (∀ k, readReg s (.len k) >>> 17 = 0) ∧
      ∀ k, readReg s (.val k) >>> 8 = 0 :=
  ⟨rfl, rfl, setWidth_ushiftRight_width _ (by decide), setWidth_ushiftRight_width _ (by decide),
    setWidth_ushiftRight_width _ (by decide), setWidth_ushiftRight_width _ (by decide),
    fun _ => setWidth_ushiftRight_width _ (by decide), fun _ => setWidth_ushiftRight_width _ (by decide)⟩

/-- Settles O12: every write but one to CMD is `hostWrite`, which looks at the register's own bits only. -/
theorem oddAccessesAreHarmless : Obligations.OddAccessesAreHarmless := by
  refine ⟨reserved_bits_read_zero, fun s off v ts legal next => ?_, fun s off ts legal next => step_read_legal legal next⟩
  have write (other : regAt off ≠ .cmd) : step s = .next (hostWrite off v { s with turns := ts }) := by
    rw [step_write_of_legalAccess legal next, writeAccess_of_register other]
  refine ⟨fun fixed => ?_, fun other => ?_, fun v' agree => ?_⟩
  · have other : regAt off ≠ .cmd := by obtain reg | reg | reg := fixed <;> simp [reg]
    rw [write other, hostWrite_readOnly fixed]
  · obtain ⟨derr, berr, -, -, result⟩ := sameFlags_hostWrite off v { s with turns := ts }
    exact ⟨_, write other, derr, berr, result⟩
  · have other := AgreeBelowWidth.ne_cmd agree
    rw [write other, step_write_of_legalAccess legal rfl, writeAccess_of_register other, hostWrite, hostWrite, writeReg_congr agree]

/-! ## Every legal turn is answered -/

theorem exec_answers (i : Instr) (s : State) : ∃ t, exec i s = .next t := by
  obtain idle | build := phase_cases s
  · exact ⟨_, exec_idle i s idle⟩
  · exact ⟨s, exec_busy i s build⟩

theorem writeAccess_answers (off : Nat) (v : Word) (s : State) : ∃ t, writeAccess off v s = .next t := by
  unfold writeAccess
  split
  · exact exec_answers _ s
  · exact ⟨_, rfl⟩

/-- Settles O42: the engine and a reset always answer, an access does once it passes the check. -/
theorem everyLegalTurnHasANextState : Obligations.EveryLegalTurnHasANextState := by
  intro s legal
  cases next : s.turns with
  | nil => exact ⟨_, by rw [step, next]⟩
  | cons e ts =>
    have now : e.legal = true := legal e (by rw [next]; rfl)
    cases e with
    | engine => exact ⟨_, by rw [step, next]⟩
    | reset => exact ⟨_, by rw [step, next]⟩
    | read off size =>
      obtain ⟨rfl, -⟩ := (legalAccess_iff off size).1 now
      exact ⟨_, step_read_legal now next⟩
    | write off size v =>
      obtain ⟨rfl, -⟩ := (legalAccess_iff off size).1 now
      rw [step_write_of_legalAccess now next]
      exact writeAccess_answers off v _

end Sys2Proof.Machine
end

section
/-! SUPPORT. Who disturbs whom (R46, R51): the engine neither reads nor writes the model's own fields, so host accesses do not change a
build; MOVE does not read the tables; between builds only BUILD and a reset touch the tree. -/

namespace Sys2Proof.Machine

/-! ## The engine and the model's own fields (log 1, log 2, log 4) -/

/-- What an engine turn leaves alone beside the tables (R46, R95). -/
theorem engineTurn_keeps (s : State) :
    (engineTurn s).derr = s.derr ∧ (engineTurn s).result = s.result ∧ (engineTurn s).turns = s.turns ∧
      (engineTurn s).rdata = s.rdata ∧ (engineTurn s).draws = s.draws := by
  obtain idle | build := phase_cases s
  · rw [engineTurn_idle s idle]
    exact ⟨rfl, rfl, rfl, rfl, rfl⟩
  · obtain ⟨-, -, -, -, kept⟩ := engineEffect_frame (engineChoice s) s
    rw [engineTurn_build s build]
    exact kept

/-- Settles O27: both forms of the engine's step are `engineTurn`. -/
theorem engineFrame : Obligations.EngineFrame := by
  intro s t turn answer
  obtain ⟨ts, rfl⟩ : ∃ ts, t = engineTurn { s with turns := ts } := by
    obtain next | ⟨ts, next⟩ := turn <;> rw [step, next] at answer <;> cases answer
    · exact ⟨[], by rw [← next]⟩
    · exact ⟨ts, rfl⟩
  obtain ⟨nlen, len, nval, vals⟩ := sameTables_engineTurn { s with turns := ts }
  obtain ⟨derr, result, -, rdata, draws⟩ := engineTurn_keeps { s with turns := ts }
  exact ⟨nlen, len, nval, valAt_congr vals, derr, result, rdata, draws⟩

/-- A step of the engine on the block alone is the block of that step. -/
theorem blockOf_engineEffect (e : EngineStep) (s : State) : blockOf (engineEffect e s) = engineEffect e (blockOf s) := by
  have same : here (blockOf s) = here s := rfl
  cases e
  case dlOld => simp only [engineEffect, stepDlOld, same]; split <;> rfl
  case drOld => simp only [engineEffect, stepDrOld, same]; split <;> rfl
  case ascend => simp only [engineEffect, stepAscend, same]; split <;> rfl
  all_goals rfl

theorem engineChoice_blockOf (s : State) : engineChoice (blockOf s) = engineChoice s := rfl

theorem blockOf_engineTurn (s : State) : blockOf (engineTurn s) = engineTurn (blockOf s) := by
  obtain idle | build := phase_cases s
  · rw [engineTurn_idle s idle, engineTurn_idle (blockOf s) idle]
  · rw [engineTurn_build s build, engineTurn_build (blockOf s) build, engineChoice_blockOf, blockOf_engineEffect]

theorem blockOf_engineTurns (n : Nat) (s : State) : blockOf (engineTurns n s) = engineTurns n (blockOf s) := by
  induction n generalizing s with
  | zero => rfl
  | succ n ih => rw [engineTurns, engineTurns, ih, blockOf_engineTurn]

/-- A build that is running after some turns was running before them. -/
theorem phase_build_of_engineTurns {n : Nat} {s : State} (build : (engineTurns n s).phase = .build) : s.phase = .build := by
  obtain idle | running := phase_cases s
  · rwa [engineTurns_idle n s idle] at build
  · exact running

/-! ## Host accesses during a build -/

/-- The engine turns an event stands for: one or none. -/
def engineShare (e : Turn) : Nat := if e = .engine then 1 else 0

/-- During a build every event but a reset does to the block what its engine turns do: one for the engine's own event, none for a host
access (R46, R47). -/
theorem step_during_build {s : State} {e : Turn} {ts : List Turn} (build : s.phase = .build) (next : s.turns = e :: ts)
    (legal : e.legal = true) (other : e ≠ .reset) :
    ∃ t, step s = .next t ∧ t.turns = ts ∧ blockOf t = engineTurns (engineShare e) (blockOf s) := by
  cases e with
  | engine =>
    obtain ⟨-, -, turns, -⟩ := engineTurn_keeps { s with turns := ts }
    exact ⟨_, by rw [step, next], turns, blockOf_engineTurn _⟩
  | reset => exact absurd rfl other
  | read off size =>
    obtain ⟨rfl, -⟩ := (legalAccess_iff off size).1 legal
    exact ⟨_, step_read_legal legal next, rfl, rfl⟩
  | write off size v =>
    obtain ⟨rfl, -⟩ := (legalAccess_iff off size).1 legal
    exact ⟨_, step_write_busy build legal next, rfl, rfl⟩

theorem count_engine_cons (e : Turn) (ts : List Turn) : (e :: ts).count .engine = engineShare e + ts.count .engine := by
  simp only [List.count_cons, engineShare, beq_iff_eq, Nat.add_comm]

theorem run_succ_of_step {n : Nat} {s t : State} (answer : step s = .next t) :
    Host.Core.run Sys2Proof.core (n + 1) s = Host.Core.run Sys2Proof.core n t := by
  have core : Sys2Proof.core.step s = .next t := answer
  simp only [Host.Core.run, core]

/-- A row of accesses and engine turns takes the block where its engine turns alone take it, as long as these do not end the build. -/
theorem run_during_build (ts : List Turn) (s : State) (next : s.turns = ts) (legal : ∀ e ∈ ts, e.legal = true ∧ e ≠ .reset)
    (build : (engineTurns (ts.count .engine) (blockOf s)).phase = .build) :
    ∃ t, Host.Core.run Sys2Proof.core ts.length s = .next t ∧ blockOf t = engineTurns (ts.count .engine) (blockOf s) := by
  induction ts generalizing s with
  | nil => exact ⟨s, rfl, rfl⟩
  | cons e ts ih =>
    have running : (blockOf s).phase = .build := phase_build_of_engineTurns build
    obtain ⟨⟨now, other⟩, later⟩ := List.forall_mem_cons.1 legal
    obtain ⟨u, answer, rest, block⟩ := step_during_build (s := s) running next now other
    rw [count_engine_cons, engineTurns_add, ← block] at build ⊢
    rw [List.length_cons, run_succ_of_step answer]
    exact ih u rest later build

/-- Settles O50: the row is the block's turns, and neither side looks at the model's own fields. -/
theorem hostCannotDisturbABuild : Obligations.HostCannotDisturbABuild := by
  intro ts s _ legal build
  have block : blockOf (engineTurns (ts.count .engine) s) = engineTurns (ts.count .engine) (blockOf { s with turns := ts }) :=
    blockOf_engineTurns _ s
  have still : (engineTurns (ts.count .engine) (blockOf { s with turns := ts })).phase = .build := block ▸ build
  rw [block]
  exact run_during_build ts { s with turns := ts } rfl legal still

/-! ## MOVE and the tables (R51(a)) -/

/-- The table registers of a state put in place of others. -/
abbrev withTableRegisters (s : State) (n : BitVec 8) (l : Vector Count 16) (m : BitVec 17) (v : List Host.Cell) : State :=
  { s with nlen := n, len := l, nval := m, vals := v }

theorem moveStep_withTableRegisters (b : Bool) (s : State) (n : BitVec 8) (l : Vector Count 16) (m : BitVec 17)
    (v : List Host.Cell) : moveStep b (withTableRegisters s n l m v) = withTableRegisters (moveStep b s) n l m v := by
  have same : here (withTableRegisters s n l m v) = here s := rfl
  have node (k : Nat) : nodeAt (withTableRegisters s n l m v) k = nodeAt s k := rfl
  simp only [moveStep, same, node]
  cases s.derr with
  | true => rfl
  | false =>
    cases edge (here s) b with
    | none => rfl
    | some k =>
      dsimp only
      cases childless (nodeAt s k.toNat) <;> rfl

/-- Settles O39: while IDLE by `moveStep`, while BUSY because nothing happens. -/
theorem moveIgnoresTheTables : Obligations.MoveIgnoresTheTables := by
  intro b s t n l m v answer
  obtain idle | build := phase_cases s
  · obtain rfl := Host.Outcome.next.inj ((exec_idle (.move b) s idle).symm.trans answer)
    rw [exec_idle (.move b) (withTableRegisters s n l m v) idle]
    exact congrArg _ (moveStep_withTableRegisters b s n l m v)
  · obtain rfl := Host.Outcome.next.inj ((exec_busy (.move b) s build).symm.trans answer)
    exact exec_busy (.move b) (withTableRegisters s n l m v) build

/-! ## The tree between builds (R51(c), R118) -/

/-- Of the commands only BUILD touches the tree. -/
theorem exec_keeps_tree {s t : State} {i : Instr} (idle : s.phase = .idle) (answer : exec i s = .next t) :
    (t.nodes = s.nodes ∧ t.alloc = s.alloc) ∨ i = .build := by
  obtain ⟨build, -, -⟩ | ⟨build, -, -⟩ | ⟨b, -, rfl⟩ | ⟨-, rfl⟩ := exec_cases idle answer
  · exact .inr build
  · exact .inr build
  · rw [moveStep_writes]
    exact .inl ⟨rfl, rfl⟩
  · exact .inl ⟨rfl, rfl⟩

theorem hostWrite_keeps_tree (off : Nat) (v : Word) (s : State) :
    (hostWrite off v s).nodes = s.nodes ∧ (hostWrite off v s).alloc = s.alloc := by
  obtain ⟨-, write⟩ | ⟨-, write⟩ := hostWrite_cases off v s <;> rw [write]
  · exact ⟨rfl, rfl⟩
  · rw [writeReg_writes]
    exact ⟨rfl, rfl⟩

/-- Settles O44: by the cases of a step; on an idle block the engine does nothing, and the one command that touches the tree is BUILD. -/
theorem treeIsImmutableBetweenBuilds : Obligations.TreeIsImmutableBetweenBuilds := by
  intro s t idle answer
  obtain ⟨-, rfl⟩ | ⟨ts, -, rfl⟩ | ⟨ts, next, -⟩ | ⟨off, ts, -, -, -, rfl⟩ |
    ⟨off, v, ts, next, -, -, ⟨i, command, run⟩ | ⟨-, rfl⟩⟩ := step_cases answer
  · rw [engineTurn_idle s idle]
    exact .inl ⟨rfl, rfl⟩
  · rw [engineTurn_idle { s with turns := ts } idle]
    exact .inl ⟨rfl, rfl⟩
  · exact .inr (.inl ⟨ts, next⟩)
  · exact .inl ⟨rfl, rfl⟩
  · obtain kept | rfl := exec_keeps_tree (s := { s with turns := ts }) idle run
    · exact .inl kept
    · obtain ⟨rfl, decodes⟩ := commandOf_some command
      exact .inr (.inr ⟨ts, by rw [next, eq_encode_of_decode? decodes]; rfl⟩)
  · exact .inl (hostWrite_keeps_tree off v _)

end Sys2Proof.Machine
end

section
/-! SUPPORT. The command words (R60 to R62): fields and word determine each other, so the decoder, the encoder and the format's table
agree. -/

namespace Sys2Proof.Machine

/-! ## Decoding and encoding -/

/-- Every command is decoded from its own word (R61). -/
@[simp] theorem decode?_encode (i : Instr) : decode? (encode i) = some i := by
  cases i with
  | build => rfl
  | move b => cases b <;> rfl
  | restart => rfl

/-- A word decodes to a command exactly when it is that command's word (R61). -/
theorem decode?_eq_some_iff (w : Word) (i : Instr) : decode? w = some i ↔ w = encode i :=
  ⟨eq_encode_of_decode?, fun h => h ▸ decode?_encode i⟩

/-- A 32-bit table row is read as the word of its number (R44, R60). -/
theorem decodeTableWord_toNat (w : Word) : decodeTableWord 32 w.toNat = decode? w := by
  rw [decodeTableWord, Nat.mod_eq_of_lt w.isLt, if_pos w.isLt, BitVec.ofNat_toNat, BitVec.setWidth_eq]

/-- Settles O3: a row of the table is read as its word, and each command has one word. -/
theorem decodeAndEncodeAgree : Obligations.DecodeAndEncodeAgree := by
  refine ⟨fun i _ => ⟨decode?_encode i, ?_⟩, fun w i h => (eq_encode_of_decode? h).symm⟩
  rw [decodeTableWord_toNat, decode?_encode]

/-- The word of each command (R61). -/
theorem encode_words : encode .build = 0x10#32 ∧ encode (.move false) = 0x20#32 ∧ encode (.move true) = 0x21#32 ∧
    encode .restart = 0x30#32 := by
  decide

/-- Settles O2: a word decodes to a command exactly when it is the command's word, and while BUSY no command is taken. -/
theorem commandsAreExactlyFourWords : Obligations.CommandsAreExactlyFourWords := by
  obtain ⟨build, left, right, restart⟩ := encode_words
  refine ⟨fun w i => ?_, exec_busy⟩
  rw [decode?_eq_some_iff]
  cases i with
  | build => simp [build]
  | move b => cases b <;> simp [left, right]
  | restart => simp [restart]

/-- Settles O1: the four words and five words that differ from all of them. -/
theorem tabledWordsDecode : Obligations.TabledWordsDecode := ⟨rfl, rfl, rfl, rfl, rfl, rfl, rfl, rfl, rfl⟩

/-! ## Reserved words -/

/-- A word other than the four commands decodes to none (R62). -/
theorem decode?_eq_none {w : Word} (build : w ≠ 0x10#32) (left : w ≠ 0x20#32) (right : w ≠ 0x21#32) (restart : w ≠ 0x30#32) :
    decode? w = none := by
  obtain ⟨four, -⟩ := commandsAreExactlyFourWords
  rw [Option.eq_none_iff_forall_ne_some]
  intro i h
  have word := (four w i).1 h
  simp [build, left, right, restart] at word

/-- A host write to CMD that carries no command changes nothing (R62). -/
theorem writeAccess_reserved {w : Word} (reserved : decode? w = none) (s : State) : writeAccess 0 w s = .next s := by
  have unchanged : hostWrite 0 w s = s := by
    obtain ⟨-, write⟩ | ⟨-, write⟩ := hostWrite_cases 0 w s
    · exact write
    · rw [write]
      rfl
  rw [writeAccess, commandOf_zero, reserved]
  exact congrArg _ unchanged

/-- Settles O7: the write is let through and carries no command. -/
theorem reservedWordChangesNothing : Obligations.ReservedWordChangesNothing := by
  intro s w ts build left right restart next
  rw [step_write_legal next (by decide) (by decide)]
  exact writeAccess_reserved (decode?_eq_none build left right restart) _

/-! ## The format -/

/-- The fields cover the word (R60). -/
@[simp] theorem wordOf_fieldsOf (w : Word) : wordOf (fieldsOf w) = w := by
  have pieces : wordOf (fieldsOf w) =
      w.extractLsb' 8 24 ++ w.extractLsb' 4 4 ++ w.extractLsb' 1 3 ++ BitVec.ofBool (w.getLsbD 0) := BitVec.setWidth_eq _
  have bit : BitVec.ofBool (w.getLsbD 0) = w.extractLsb' 0 1 := by
    ext k hk
    obtain rfl : k = 0 := by omega
    simp
  have op : w.extractLsb' 8 24 ++ w.extractLsb' 4 4 = w.extractLsb' 4 (24 + 4) :=
    BitVec.extractLsb'_append_extractLsb'_eq_extractLsb' rfl
  have zeroLo : w.extractLsb' 4 (24 + 4) ++ w.extractLsb' 1 3 = w.extractLsb' 1 (24 + 4 + 3) :=
    BitVec.extractLsb'_append_extractLsb'_eq_extractLsb' rfl
  have whole : w.extractLsb' 1 (24 + 4 + 3) ++ w.extractLsb' 0 1 = w.extractLsb' 0 (24 + 4 + 3 + 1) :=
    BitVec.extractLsb'_append_extractLsb'_eq_extractLsb' rfl
  rw [pieces, bit, op, zeroLo, whole]
  exact BitVec.extractLsb'_eq_self

open BitVec (extractLsb'_append_eq_of_le extractLsb'_append_eq_left extractLsb'_append_eq_right getLsbD_append) in
/-- No field reaches into another (R60). -/
@[simp] theorem fieldsOf_wordOf (f : CommandFields) : fieldsOf (wordOf f) = f := by
  obtain ⟨hi, op, lo, b⟩ := f
  have pieces : wordOf ⟨hi, op, lo, b⟩ = hi ++ op ++ lo ++ BitVec.ofBool b := BitVec.setWidth_eq _
  rw [fieldsOf, pieces, CommandFields.mk.injEq]
  refine ⟨?_, ?_, ?_, getLsbD_append.trans (by simp)⟩
  · exact (extractLsb'_append_eq_of_le (by decide)).trans <| (extractLsb'_append_eq_of_le (by decide)).trans
      extractLsb'_append_eq_left
  · exact (extractLsb'_append_eq_of_le (by decide)).trans <| (extractLsb'_append_eq_of_le (by decide)).trans
      extractLsb'_append_eq_right
  · exact (extractLsb'_append_eq_of_le (by decide)).trans extractLsb'_append_eq_right

/-- The fields of a command obey the format's table (R60, R61). -/
theorem wf_fields (i : Instr) : i.fields.wf = true := by
  cases i with
  | build => rfl
  | move b => cases b <;> rfl
  | restart => rfl

/-- Fields that obey the format's table are those of a command (R60, R61). -/
theorem exists_fields_of_wf {f : CommandFields} (wf : f.wf = true) : ∃ i : Instr, i.fields = f := by
  obtain ⟨hi, op, lo, b⟩ := f
  simp only [CommandFields.wf, Bool.and_eq_true, Bool.or_eq_true, beq_iff_eq, Bool.not_eq_true'] at wf
  obtain ⟨⟨⟨rfl, rfl⟩, (rfl | rfl) | rfl⟩, bit⟩ := wf
  · exact ⟨.build, by simp_all [Instr.fields]⟩
  · exact ⟨.move b, rfl⟩
  · exact ⟨.restart, by simp_all [Instr.fields]⟩

/-- Settles O4: word and fields determine each other, and the well-formed fields are those of the commands. -/
theorem formatDecidesDecoding : Obligations.FormatDecidesDecoding := by
  refine fun w => ⟨?_, wordOf_fieldsOf w⟩
  rw [Bool.eq_iff_iff, Option.isSome_iff_exists]
  constructor
  · rintro ⟨i, h⟩
    rw [eq_encode_of_decode? h, encode, fieldsOf_wordOf, wf_fields]
  · intro wf
    obtain ⟨i, h⟩ := exists_fields_of_wf wf
    exact ⟨i, (decode?_eq_some_iff w i).2 (by rw [encode, h, wordOf_fieldsOf])⟩

end Sys2Proof.Machine
end

section
/-! SUPPORT. The node word (R64): where each field stands, and that the word carries the node. -/

namespace Sys2Proof.Machine

/-! ## One pointer -/

/-- A pointer written and read back, its index bits 0 when it is absent (R64). -/
@[simp] theorem pointerOf_pointerBits (p : Option NodeIdx) : pointerOf (pointerBits p) = p := by
  cases p with
  | none => rfl
  | some k =>
    have valid : (1#1 ++ k).getLsbD 17 = true := BitVec.getLsbD_append
    have index : (1#1 ++ k).setWidth 17 = k := BitVec.setWidth_append_eq_right
    exact (if_pos valid).trans (congrArg some index)

theorem index_pointerBits (p : Option NodeIdx) : (pointerBits p).extractLsb' 0 17 = p.getD 0 := by
  cases p with
  | none => rfl
  | some k => exact BitVec.extractLsb'_append_eq_right

theorem valid_pointerBits (p : Option NodeIdx) : (pointerBits p).getLsbD 17 = p.isSome := by
  cases p with
  | none => rfl
  | some k => exact BitVec.getLsbD_append

/-- Without its valid bit a pointer is absent, whatever its index bits are (R64). -/
theorem pointerOf_eq_none {w : BitVec 18} (invalid : w.getLsbD 17 = false) : pointerOf w = none :=
  if_neg (ne_true_of_eq_false invalid)

/-- A pointer's index is its lower 17 bits in the node word. -/
theorem index_of_pointer (w : NodeWord) (start : Nat) : w.extractLsb' start 17 = (w.extractLsb' start 18).extractLsb' 0 17 := by
  ext k hk
  have inside : k < 18 := by omega
  rw [BitVec.getElem_extractLsb', BitVec.getElem_extractLsb', BitVec.getLsbD_extractLsb']
  simp [inside]

/-- A pointer's valid bit is its top bit in the node word. -/
theorem valid_of_pointer (w : NodeWord) (start : Nat) : w.getLsbD (start + 17) = (w.extractLsb' start 18).getLsbD 17 :=
  (BitVec.getLsbD_extractLsb' start 18 w 17).symm

/-! ## The fields of the word -/

/-- The six fields of R64's table, a pointer counted as one. -/
structure HasFields (w : NodeWord) (n : Node) : Prop where
  left : w.extractLsb' 0 18 = pointerBits n.left
  right : w.extractLsb' 18 18 = pointerBits n.right
  parent : w.extractLsb' 36 18 = pointerBits n.parent
  value : w.extractLsb' 54 8 = n.value
  used : w.getLsbD 62 = n.used
  visited : w.extractLsb' 63 17 = n.visited

open BitVec (extractLsb'_append_eq_of_le extractLsb'_append_eq_left extractLsb'_append_eq_right) in
/-- Each field stands above those R64's table puts below it. -/
theorem hasFields_nodeToWord (n : Node) : HasFields (nodeToWord n) n := by
  have pieces : nodeToWord n = n.visited ++ BitVec.ofBool n.used ++ n.value ++ pointerBits n.parent ++ pointerBits n.right ++
      pointerBits n.left := BitVec.setWidth_eq _
  constructor
  case used =>
    simp only [nodeToWord, BitVec.getLsbD_setWidth, BitVec.getLsbD_append]
    simp
  all_goals rw [pieces]
  case left => exact extractLsb'_append_eq_right
  all_goals refine (extractLsb'_append_eq_of_le (by decide)).trans ?_
  case right => exact extractLsb'_append_eq_right
  all_goals refine (extractLsb'_append_eq_of_le (by decide)).trans ?_
  case parent => exact extractLsb'_append_eq_right
  all_goals refine (extractLsb'_append_eq_of_le (by decide)).trans ?_
  case value => exact extractLsb'_append_eq_right
  case visited => exact (extractLsb'_append_eq_of_le (by decide)).trans extractLsb'_append_eq_left

/-- Reading the word of a node gives the node (R64). -/
@[simp] theorem nodeOfWord_nodeToWord (n : Node) : nodeOfWord (nodeToWord n) = n := by
  obtain ⟨left, right, parent, value, used, visited⟩ := hasFields_nodeToWord n
  rw [nodeOfWord, left, right, parent, value, used, visited]
  simp

/-- `fresh(p)` has its parent pointer alone (R64). -/
theorem nodeToWord_fresh (p : NodeIdx) : nodeToWord (fresh p) = (1#80 <<< 53) ||| (p.setWidth 80 <<< 36) := by
  simp only [nodeToWord, fresh, pointerBits, BitVec.setWidth_append_eq_shiftLeft_setWidth_or]
  simp [BitVec.shiftLeft_or_distrib, ← BitVec.shiftLeft_add]

/-- Settles O5: the fields one by one, a pointer split into its index and its valid bit. -/
theorem nodeWordLayout : Obligations.NodeWordLayout := by
  refine ⟨fun n => ?_, by decide, nodeToWord_fresh, fun w => ⟨fun invalid => ?_, fun invalid => ?_, fun invalid => ?_⟩⟩
  · obtain ⟨left, right, parent, value, used, visited⟩ := hasFields_nodeToWord n
    refine ⟨?_, ?_, ?_, ?_, ?_, ?_, value, used, visited, nodeOfWord_nodeToWord n⟩
    · rw [index_of_pointer, left, index_pointerBits]
    · rw [valid_of_pointer _ 0, left, valid_pointerBits]
    · rw [index_of_pointer, right, index_pointerBits]
    · rw [valid_of_pointer _ 18, right, valid_pointerBits]
    · rw [index_of_pointer, parent, index_pointerBits]
    · rw [valid_of_pointer _ 36, parent, valid_pointerBits]
  · exact pointerOf_eq_none ((valid_of_pointer w 0).symm.trans invalid)
  · exact pointerOf_eq_none ((valid_of_pointer w 18).symm.trans invalid)
  · exact pointerOf_eq_none ((valid_of_pointer w 36).symm.trans invalid)

end Sys2Proof.Machine
end

section
/-! SUPPORT. The canonical codes (R68) as intervals of the 2^16 code words of 16 bits: where each code starts, and its bits. -/

namespace Sys2Proof.Machine

/-! ## The interval of a code -/

/-- The code of a node's child: one bit more (R66). -/
def extendCode (c : Nat × Nat) (b : Bool) : Nat × Nat := (c.1 + 1, 2 * c.2 + b.toNat)

/-- The first of the 16-bit code words that start with a code. -/
def firstWord (c : Nat × Nat) : Nat := c.2 * 2 ^ (16 - c.1)

/-- The first code word of the right half. -/
def midWord (c : Nat × Nat) : Nat := firstWord c + 2 ^ (15 - c.1)

/-- The first code word past a code. -/
def endWord (c : Nat × Nat) : Nat := firstWord c + 2 ^ (16 - c.1)

section

variable {c : Nat × Nat} (short : c.1 < 16)
include short

theorem two_halves : 2 ^ (16 - c.1) = 2 * 2 ^ (15 - c.1) := by
  rw [← Nat.pow_succ', show 16 - c.1 = 15 - c.1 + 1 by omega]

theorem midWord_lt_endWord : midWord c < endWord c := by
  have half := Nat.two_pow_pos (15 - c.1)
  rw [midWord, endWord, two_halves short]
  omega

theorem firstWord_extendCode (b : Bool) : firstWord (extendCode c b) = if b then midWord c else firstWord c := by
  have half : 16 - (c.1 + 1) = 15 - c.1 := by omega
  rw [firstWord, midWord, firstWord, extendCode, half, two_halves short]
  cases b
  · rw [Bool.toNat_false, if_neg Bool.false_ne_true]
    ring
  · rw [Bool.toNat_true, if_pos rfl]
    ring

theorem endWord_extendCode (b : Bool) : endWord (extendCode c b) = if b then endWord c else midWord c := by
  have half : 16 - (c.1 + 1) = 15 - c.1 := by omega
  rw [endWord, firstWord_extendCode short, extendCode, half]
  cases b
  · rfl
  · simp only [if_true, midWord, endWord, two_halves short]
    omega

theorem endWord_extendCode_le (b : Bool) : endWord (extendCode c b) ≤ endWord c := by
  rw [endWord_extendCode short]
  cases b
  · exact (midWord_lt_endWord short).le
  · exact le_refl _

end

/-- A code is known from its length and its first code word. -/
theorem code_eq_of_firstWord {c d : Nat × Nat} (length : c.1 = d.1) (first : firstWord c = firstWord d) : c = d := by
  refine Prod.ext length ?_
  rw [firstWord, firstWord, length] at first
  exact Nat.eq_of_mul_eq_mul_right (Nat.two_pow_pos _) first

/-- The bits of a child's code are its parent's and the edge's (R66). -/
theorem codeBits_extendCode (c : Nat × Nat) (b : Bool) : codeBits (extendCode c b) = codeBits c ++ [b] := by
  have upper : ∀ m, m < c.1 → (2 * c.2 + b.toNat).testBit (c.1 - m) = c.2.testBit (c.1 - 1 - m) := by
    intro m hm
    have half : (2 * c.2 + b.toNat) / 2 = c.2 := by
      have bit := Bool.toNat_lt b
      omega
    rw [show c.1 - m = c.1 - 1 - m + 1 by omega, Nat.testBit_succ, half]
  have last : (2 * c.2 + b.toNat).testBit 0 = b := by cases b <;> simp
  simp only [codeBits, extendCode, Nat.add_sub_cancel, List.range_succ, List.map_append, List.map_cons, List.map_nil,
    Nat.sub_self, last]
  rw [List.map_congr_left fun m hm => upper m (List.mem_range.1 hm)]

/-! ## The canonical codes -/

/-- The Kraft sum of a list of code lengths, in units of 2^-16 (R99). -/
def codeSum (ls : List Nat) : Nat := (ls.map fun l => 2 ^ (16 - l)).sum

@[simp] theorem codeSum_cons (l : Nat) (ls : List Nat) : codeSum (l :: ls) = 2 ^ (16 - l) + codeSum ls := by
  simp [codeSum]

theorem codeSum_append (ls : List Nat) (l : Nat) : codeSum (ls ++ [l]) = codeSum ls + 2 ^ (16 - l) := by
  simp [codeSum]

/-- Each code starts where the codes before it end (R68). -/
theorem codesAfter_getElem? {l c j : Nat} {ls : List Nat} {d : Nat × Nat} (sorted : (l :: ls).Pairwise (· ≤ ·))
    (short : ∀ m ∈ ls, m ≤ 16) (h : (codesAfter l c ls)[j]? = some d) :
    ls[j]? = some d.1 ∧ firstWord d = (c + 1) * 2 ^ (16 - l) + codeSum (ls.take j) := by
  induction ls generalizing l c j with
  | nil => simp [codesAfter] at h
  | cons m r ih =>
    obtain ⟨least, tail⟩ := List.pairwise_cons.1 sorted
    have le : l ≤ m := least m List.mem_cons_self
    have m_le : m ≤ 16 := short m List.mem_cons_self
    have scale : (c + 1) * 2 ^ (m - l) * 2 ^ (16 - m) = (c + 1) * 2 ^ (16 - l) := by
      rw [Nat.mul_assoc, ← Nat.pow_add, show m - l + (16 - m) = 16 - l by omega]
    rw [codesAfter] at h
    cases j with
    | zero =>
      obtain rfl : (m, (c + 1) * 2 ^ (m - l)) = d := Option.some.inj h
      exact ⟨rfl, scale⟩
    | succ j =>
      obtain ⟨length, first⟩ := ih tail (fun x hx => short x (List.mem_cons_of_mem m hx)) h
      refine ⟨length, ?_⟩
      rw [first, Nat.add_mul, scale, List.take_succ_cons, codeSum_cons]
      omega

/-- Canonical code `j` has the length listed at `j` and starts at the Kraft sum of the codes before it (R68). -/
theorem canonicalCodes_getElem? {j : Nat} {ls : List Nat} {d : Nat × Nat} (sorted : ls.Pairwise (· ≤ ·))
    (short : ∀ m ∈ ls, m ≤ 16) (h : (canonicalCodes ls)[j]? = some d) :
    ls[j]? = some d.1 ∧ firstWord d = codeSum (ls.take j) := by
  cases ls with
  | nil => simp [canonicalCodes] at h
  | cons l r =>
    cases j with
    | zero =>
      obtain rfl : (l, 0) = d := Option.some.inj h
      exact ⟨rfl, Nat.zero_mul _⟩
    | succ j =>
      obtain ⟨length, first⟩ := codesAfter_getElem? sorted (fun x hx => short x (List.mem_cons_of_mem l hx)) h
      refine ⟨length, ?_⟩
      rw [first, List.take_succ_cons, codeSum_cons, Nat.zero_add, Nat.one_mul]

theorem lengthSequence_sorted (s : State) : (lengthSequence s).Pairwise (· ≤ ·) := by
  refine List.pairwise_flatMap.2 ⟨fun k _ => List.pairwise_replicate.2 (.inr (le_refl _)), ?_⟩
  refine List.pairwise_lt_range.imp fun lt x hx y hy => ?_
  rw [List.eq_of_mem_replicate hx, List.eq_of_mem_replicate hy]
  omega

theorem lengthSequence_le {s : State} (fits : s.nlen.toNat ≤ 16) : ∀ l ∈ lengthSequence s, l ≤ 16 := by
  intro l hl
  obtain ⟨k, hk, hl⟩ := List.mem_flatMap.1 hl
  rw [List.eq_of_mem_replicate hl]
  exact (List.mem_range.1 hk).trans_le fits

end Sys2Proof.Machine
end

section
/-! SUPPORT. The walk of a build whatever VAL holds: the invariant of R97 for a block whose VAL entries are any list at all. -/

namespace Sys2Proof.Machine

/-- The walk does not look at VAL: it goes on over any entries in canonical form. -/
theorem Building.with_vals {s : State} (h : Building s) {v : List Host.Cell} (wf : memoryWf v = true) (bound : ∀ c ∈ v, c.1 < 65536) :
    Building { s with vals := v } := by
  obtain ⟨phase, ⟨nodesWf, -, -, keys⟩, tree, walk⟩ := h
  have links : SameLinks s { s with vals := v } := .of_nodes rfl rfl
  refine ⟨phase, ⟨nodesWf, wf, bound, keys⟩, tree.of_nodes rfl rfl, { walk with depth := ?_, node := fun k hk => ?_ }⟩
  · exact (links.depthOf _).trans walk.depth
  · obtain ⟨shallow, leaf, stamp⟩ := walk.node k hk
    exact ⟨links.depthOf k ▸ shallow, leaf, stamp⟩

/-- PLACE reads one entry of VAL (R87). -/
theorem stepPlace_with_vals {s : State} {v : List Host.Cell}
    (same : valAt { s with vals := v } s.vidx.toNat = valAt s s.vidx.toNat) :
    stepPlace { s with vals := v } = { stepPlace s with vals := v } := by
  rw [stepPlace, same]
  rfl

/-- The invariant of a build with VAL set aside. -/
def Walking (s : State) : Prop := Building { s with vals := [] }

namespace Walking

variable {s : State} (h : Walking s)
include h

theorem phase : s.phase = .build := Building.phase (s := { s with vals := [] }) h

theorem tree : CodeTree s := (Building.tree h).of_nodes rfl rfl

theorem walk : Walk s := by
  have links : SameLinks { s with vals := [] } s := .of_nodes rfl rfl
  have walk := Building.walk h
  refine { walk with depth := (links.depthOf _).trans walk.depth, node := fun k hk => ?_ }
  obtain ⟨shallow, leaf, stamp⟩ := walk.node k hk
  exact ⟨links.depthOf k ▸ shallow, leaf, stamp⟩

theorem skip (more : s.i.toNat ≠ s.nlen.toNat) (empty : cntAt s s.i.toNat = 0) : Walking (stepSkip s) := Building.skip h more empty

theorem descend {b : Bool} {k : NodeIdx} (more : s.i.toNat ≠ s.nlen.toNat) (wanted : cntAt s s.i.toNat ≠ 0)
    (above : s.depth.toNat ≠ s.i.toNat + 1) (down : edge (here s) b = some k) (unused : (nodeAt s k.toNat).used = false) :
    Walking (descend s k) := Building.descend h more wanted above down unused

theorem canGrow {b : Bool} (more : s.i.toNat ≠ s.nlen.toNat) (above : s.depth.toNat ≠ s.i.toNat + 1)
    (free : edge (here s) b = none) (leftFirst : b = true → (here s).left ≠ none) : CanGrow s b s.depth.toNat :=
  { Building.canGrow h more above free leftFirst with tree := h.tree, depth := h.walk.depth }

theorem newChild {b : Bool} (more : s.i.toNat ≠ s.nlen.toNat) (wanted : cntAt s s.i.toNat ≠ 0)
    (above : s.depth.toNat ≠ s.i.toNat + 1) (free : edge (here s) b = none) (leftFirst : b = true → (here s).left ≠ none) :
    Walking (newChild s b) := Building.newChild h more wanted above free leftFirst

theorem ascend {p : NodeIdx} (more : s.i.toNat ≠ s.nlen.toNat) (wanted : cntAt s s.i.toNat ≠ 0)
    (inner : childless (here s) = false) (up : (here s).parent = some p) : Walking (ascendTo s p) :=
  Building.ascend h more wanted inner up

/-- At the bucket's depth the cursor is at a childless node other than the root. -/
theorem cursor_leaf (deep : s.depth.toNat = s.i.toNat + 1) : s.cursor.toNat ≠ 0 ∧ childless (here s) = true :=
  Building.cursor_leaf (s := { s with vals := [] }) h deep

/-- At the bucket's depth a value is still to be placed, so fewer than 2^16 are (R97(d)). -/
theorem vidx_lt (deep : s.depth.toNat = s.i.toNat + 1) : s.vidx.toNat < 65536 := by
  obtain ⟨-, bare⟩ := h.cursor_leaf deep
  exact h.walk.placed.trans_lt (h.tree.usedCount_lt h.walk.allocated bare h.walk.unused)

/-- PLACE reads one entry of VAL, so it does not matter what the others are. -/
theorem place (wanted : cntAt s s.i.toNat ≠ 0) (deep : s.depth.toNat = s.i.toNat + 1) : Walking (stepPlace s) := by
  have inside := h.vidx_lt deep
  have entry : Building { s with vals := [(s.vidx.toNat, valAt s s.vidx.toNat)] } :=
    Building.with_vals h rfl (by simp [inside])
  have placed := entry.place wanted deep
  rw [stepPlace_with_vals (by simp [valAt, lookup_cons])] at placed
  exact placed.with_vals (v := []) rfl (by simp)

end Walking

/-- The power-up block with another block's tables but for VAL, and its pending events. -/
def powerUpWithTables (s : State) : State :=
  { State.reset with nlen := s.nlen, len := s.len, nval := s.nval, turns := s.turns, rdata := s.rdata, draws := s.draws }

/-- BUILD start (R83) begins a walk, whatever the block held before: but for VAL it starts as from power-up. -/
theorem walking_start {s : State} (fits : s.nlen.toNat ≤ 16) : Walking (walkInit (buildClear s)) := by
  have inv : Inv (powerUpWithTables s) :=
    inv_of_bareRoot ⟨rfl, rfl, fun c hc => absurd hc List.not_mem_nil, rfl⟩ rfl rfl rfl rfl rfl rfl rfl
  have started := (Idle.of_inv inv rfl).buildStart
  obtain ⟨large, -⟩ | ⟨-, start⟩ := buildStart_cases (powerUpWithTables s)
  · exact absurd fits (Nat.not_le.2 large)
  · rw [start] at started
    exact Building.of_inv started rfl

/-! ## Childless nodes during the walk -/

/-- The root of a tree of more than one node has a child. -/
theorem CodeTree.root_inner {s : State} (tree : CodeTree s) {k : Nat} (allocated : k < s.alloc.toNat) (ne : k ≠ 0) :
    childless (nodeAt s 0) = false := by
  obtain ⟨d, depth⟩ := (tree.linked k allocated).depth
  induction d generalizing k with
  | zero =>
    obtain ⟨p, up, -⟩ := (tree.linked k allocated).parent ne
    obtain ⟨e, he, -⟩ := depthOf_parent up depth
    cases he
  | succ d ih =>
    obtain ⟨p, up, -⟩ := (tree.linked k allocated).parent ne
    obtain ⟨inside, inner⟩ := tree.parent_allocated allocated up
    obtain ⟨e, he, parentDepth⟩ := depthOf_parent up depth
    by_cases root : p.toNat = 0
    · rwa [root] at inner
    · cases he
      exact ih inside root parentDepth

end Sys2Proof.Machine
end

section
/-! SUPPORT. The codes of the nodes (R66) and how a build fills the code words from the left (R68, R87 to R93): values stand at
consecutive intervals, and what lies right of them is free. -/

namespace Sys2Proof.Machine

/-! ## The code of each node -/

/-- An allocated node's index fits a pointer (R5, R16). -/
theorem toNat_of_allocated {s : State} {k : Nat} (allocated : k < s.alloc.toNat) : (BitVec.ofNat 17 k).toNat = k := by
  have small := s.alloc.isLt
  rw [BitVec.toNat_ofNat, Nat.mod_eq_of_lt (by omega)]

/-- `code` gives each allocated node the bits that lead to it from the root, as a length and a number (R66, R68). -/
structure Numbered (s : State) (code : Nat → Nat × Nat) : Prop where
  root : code 0 = (0, 0)
  depth : ∀ k, k < s.alloc.toNat → depthOf s k = some (code k).1
  child : ∀ k b x, k < s.alloc.toNat → edge (nodeAt s k) b = some x → code x.toNat = extendCode (code k) b

namespace Numbered

variable {s t : State} {code : Nat → Nat × Nat} (numbered : Numbered s code)
include numbered

theorem of_sameLinks (links : SameLinks s t) : Numbered t code where
  root := numbered.root
  depth k hk := (links.depthOf k).trans (numbered.depth k (links.alloc ▸ hk))
  child k b x hk down := numbered.child k b x (links.alloc ▸ hk) (links.edge k b ▸ down)

/-- A node with a child is less than 16 deep. -/
theorem short (tree : CodeTree s) {k : Nat} {b : Bool} {x : NodeIdx} (allocated : k < s.alloc.toNat)
    (down : edge (nodeAt s k) b = some x) : (code k).1 < 16 := by
  obtain ⟨small, -⟩ := climb_fuel (tree.depthOf_edge allocated (numbered.depth k allocated) down)
  omega

/-- A node other than the root hangs from an edge of an internal node and has that edge's code. -/
theorem from_parent (tree : CodeTree s) {k : Nat} (allocated : k < s.alloc.toNat) (ne : k ≠ 0) :
    ∃ (p : NodeIdx) (b : Bool), p.toNat < s.alloc.toNat ∧ childless (nodeAt s p.toNat) = false ∧
      edge (nodeAt s p.toNat) b = some (BitVec.ofNat 17 k) ∧ code k = extendCode (code p.toNat) b := by
  obtain ⟨p, -, inside, b, down⟩ := (tree.linked k allocated).parent ne
  have index := toNat_of_allocated allocated
  have extended := numbered.child _ b _ inside down
  rw [index] at extended
  exact ⟨p, b, inside, childless_false_of_edge down, down, extended⟩

end Numbered

/-- The codes after a child is made under the cursor: the new node's is added. -/
def codeWithChild (s : State) (code : Nat → Nat × Nat) (b : Bool) : Nat → Nat × Nat :=
  Function.update code s.alloc.toNat (extendCode (code s.cursor.toNat) b)

section

variable {s : State} {code : Nat → Nat × Nat} {b : Bool}

@[simp] theorem codeWithChild_new : codeWithChild s code b s.alloc.toNat = extendCode (code s.cursor.toNat) b :=
  Function.update_self ..

theorem codeWithChild_old {k : Nat} (old : k < s.alloc.toNat) : codeWithChild s code b k = code k :=
  Function.update_of_ne (Nat.ne_of_lt old) ..

/-- An edge after `newChild` is the new one or was there before. -/
theorem CanGrow.edge_cases {d : Nat} (grow : CanGrow s b d) {k : Nat} {c : Bool} {x : NodeIdx} (old : k < s.alloc.toNat)
    (down : edge (nodeAt (newChild s b) k) c = some x) :
    (k = s.cursor.toNat ∧ c = b ∧ x = s.alloc) ∨ edge (nodeAt s k) c = some x := by
  by_cases cursor : k = s.cursor.toNat
  · subst cursor
    rw [nodeAt_newChild_cursor] at down
    by_cases side : c = b
    · subst side
      rw [edge_withEdge_same] at down
      exact .inl ⟨rfl, rfl, (Option.some.inj down).symm⟩
    · obtain rfl : c = !b := Bool.eq_not.2 side
      rw [edge_withEdge_other] at down
      exact .inr down
  · rw [nodeAt_newChild_other old cursor] at down
    exact .inr down

/-- After `newChild` an allocated node is an old one or the new one. -/
theorem CanGrow.lt_cases {d : Nat} (grow : CanGrow s b d) {k : Nat} (allocated : k < (newChild s b).alloc.toNat) :
    k < s.alloc.toNat ∨ k = s.alloc.toNat := by
  rw [grow.alloc_toNat] at allocated
  exact Nat.lt_succ_iff_lt_or_eq.1 allocated

theorem Numbered.short_of_canGrow {d : Nat} (numbered : Numbered s code) (grow : CanGrow s b d) : (code s.cursor.toNat).1 < 16 :=
  (Option.some.inj ((numbered.depth _ grow.allocated).symm.trans grow.depth)).trans_lt grow.room

theorem Numbered.newChild {d : Nat} (numbered : Numbered s code) (grow : CanGrow s b d) :
    Numbered (newChild s b) (codeWithChild s code b) where
  root := (codeWithChild_old grow.tree.alloc_pos).trans numbered.root
  depth k hk := by
    obtain old | rfl := grow.lt_cases hk
    · rw [codeWithChild_old old, grow.depthOf_old old, numbered.depth k old]
    · have here := (numbered.depth _ grow.allocated).symm.trans grow.depth
      rw [grow.depthOf_new, codeWithChild_new, extendCode, Option.some.inj here]
  child k c x hk down := by
    obtain old | rfl := grow.lt_cases hk
    · rw [codeWithChild_old old]
      obtain ⟨rfl, rfl, rfl⟩ | before := grow.edge_cases old down
      · exact codeWithChild_new
      · obtain ⟨-, inside, -⟩ := (grow.tree.linked k old).child c x before
        rw [codeWithChild_old inside]
        exact numbered.child k c x old before
    · rw [nodeAt_newChild_alloc grow.allocated, edge_fresh] at down
      cases down

end

/-! ## The filled words -/

/-- No childless node but the one under the cursor lacks a value. -/
def OnlyTip (s : State) : Prop :=
  ∀ k, k < s.alloc.toNat → childless (nodeAt s k) = true → (nodeAt s k).used = false → k = s.cursor.toNat

/-- A node with a left child only (R89, R91): the right half of its words is free. -/
def HalfOpen (n : Node) : Prop := n.left ≠ none ∧ n.right = none

/-- During a build the code words below `sum` are those of the used nodes: a used or explored node ends there, a free right half and a
childless node without a value begin there or later. -/
structure Filled (s : State) (code : Nat → Nat × Nat) (sum : Nat) : Prop where
  numbered : Numbered s code
  used : ∀ k, k < s.alloc.toNat → (nodeAt s k).used = true → endWord (code k) ≤ sum
  explored : ∀ k, k < s.alloc.toNat → (nodeAt s k).visited = s.order → endWord (code k) ≤ sum
  halfOpen : ∀ k, k < s.alloc.toNat → HalfOpen (nodeAt s k) → sum ≤ midWord (code k)
  nested : ∀ j k, j < s.alloc.toNat → k < s.alloc.toNat → HalfOpen (nodeAt s j) → HalfOpen (nodeAt s k) → j ≠ k →
    endWord (code j) ≤ midWord (code k) ∨ endWord (code k) ≤ midWord (code j)
  tip : ∀ k, k < s.alloc.toNat → childless (nodeAt s k) = true → (nodeAt s k).used = false →
    firstWord (code k) = sum ∧ ∀ j, j < s.alloc.toNat → HalfOpen (nodeAt s j) → endWord (code k) ≤ midWord (code j)

theorem halfOpen_congr {s t : State} (links : SameLinks s t) (k : Nat) : HalfOpen (nodeAt t k) ↔ HalfOpen (nodeAt s k) := by
  rw [HalfOpen, HalfOpen, links.left, links.right]

/-- After `newChild` the half-open nodes are the old ones other than the cursor, and the cursor if its left child was made. -/
theorem CanGrow.halfOpen_cases {s : State} {b : Bool} {d : Nat} (grow : CanGrow s b d) {k : Nat}
    (allocated : k < (newChild s b).alloc.toNat) (h : HalfOpen (nodeAt (newChild s b) k)) :
    k < s.alloc.toNat ∧ ((k = s.cursor.toNat ∧ b = false) ∨ (k ≠ s.cursor.toNat ∧ HalfOpen (nodeAt s k))) := by
  obtain old | rfl := grow.lt_cases allocated
  · refine ⟨old, ?_⟩
    by_cases cursor : k = s.cursor.toNat
    · rw [cursor, nodeAt_newChild_cursor] at h
      cases b
      · exact .inl ⟨cursor, rfl⟩
      · exact absurd h.2 (by simp [withEdge])
    · rw [nodeAt_newChild_other old cursor] at h
      exact .inr ⟨cursor, h⟩
  · rw [nodeAt_newChild_alloc grow.allocated] at h
    exact absurd rfl h.1

/-- The end of the chain that is being made is the only one (R97(f)). -/
theorem Walking.onlyTip {s : State} (h : Walking s) : OnlyTip s := by
  intro k allocated bare unused
  by_cases root : k = 0
  · subst root
    by_contra away
    exact absurd (bare.symm.trans (h.tree.root_inner h.walk.allocated (Ne.symm away))) (by simp)
  · exact (h.walk.node k allocated).leaf root bare unused

namespace Filled

variable {s t : State} {code : Nat → Nat × Nat} {sum : Nat} (filled : Filled s code sum)
include filled

/-- A step that keeps the pointers and the used nodes and explores only nodes that end at `sum`. -/
theorem of_sameLinks (links : SameLinks s t) (used : ∀ k, (nodeAt t k).used = (nodeAt s k).used)
    (explored : ∀ k, k < s.alloc.toNat → (nodeAt t k).visited = t.order →
      (nodeAt s k).visited = s.order ∨ endWord (code k) ≤ sum) : Filled t code sum where
  numbered := filled.numbered.of_sameLinks links
  used k hk h := filled.used k (links.alloc ▸ hk) (used k ▸ h)
  explored k hk h := (explored k (links.alloc ▸ hk) h).elim (filled.explored k (links.alloc ▸ hk)) id
  halfOpen k hk h := filled.halfOpen k (links.alloc ▸ hk) ((halfOpen_congr links k).1 h)
  nested j k hj hk openJ openK := filled.nested j k (links.alloc ▸ hj) (links.alloc ▸ hk) ((halfOpen_congr links j).1 openJ)
    ((halfOpen_congr links k).1 openK)
  tip k hk bare unused := by
    obtain ⟨first, below⟩ := filled.tip k (links.alloc ▸ hk) (links.childless k ▸ bare) (used k ▸ unused)
    exact ⟨first, fun j hj h => below j (links.alloc ▸ hj) ((halfOpen_congr links j).1 h)⟩

/-- A step that touches no node, within the same pass. -/
theorem of_nodes (nodes : t.nodes = s.nodes) (alloc : t.alloc = s.alloc) (order : t.order = s.order) : Filled t code sum :=
  filled.of_sameLinks (.of_nodes nodes alloc) (fun k => by rw [nodeAt_congr nodes])
    fun k _ h => .inl (by rwa [nodeAt_congr nodes, order] at h)

/-- The walk passes by a child only when all its words are filled (R84). -/
theorem endWord_le_of_not_enterable {k : NodeIdx} (allocated : k.toNat < s.alloc.toNat) (closed : enterable s k = false) :
    endWord (code k.toNat) ≤ sum := by
  cases used : (nodeAt s k.toNat).used with
  | true => exact filled.used _ allocated used
  | false =>
    have visited : (nodeAt s k.toNat).visited = s.order := by simpa [enterable, used] using closed
    exact filled.explored _ allocated visited

/-- ASCEND from a node both of whose children are filled (R93). -/
theorem ascend {r p : NodeIdx} (tree : CodeTree s) (allocated : s.cursor.toNat < s.alloc.toNat)
    (right : (here s).right = some r) (closed : enterable s r = false) : Filled (ascendTo s p) code sum := by
  have down : edge (nodeAt s s.cursor.toNat) true = some r := right
  obtain ⟨-, inside, -⟩ := (tree.linked _ allocated).child true r down
  refine filled.of_sameLinks (sameLinks_ascendTo s p) (used_ascendTo s p) fun k _ visited => ?_
  rw [nodeAt_ascendTo] at visited
  split at visited
  · next cursor =>
    refine .inr ?_
    have end_right := filled.endWord_le_of_not_enterable inside closed
    rw [filled.numbered.child _ true r allocated down,
      endWord_extendCode (filled.numbered.short tree allocated down), if_pos rfl] at end_right
    rwa [cursor]
  · exact .inl visited

/-- PLACE (R87): the node under the cursor, which begins at `sum`, is filled, and nothing right of it was. -/
theorem place (allocated : s.cursor.toNat < s.alloc.toNat) (bare : childless (here s) = true) (unused : (here s).used = false)
    (passed : ∀ k, k < s.alloc.toNat → (nodeAt (stepPlace s) k).visited ≠ s.order + 1)
    (only : OnlyTip s) :
    Filled (stepPlace s) code (endWord (code s.cursor.toNat)) := by
  obtain ⟨first, below⟩ := filled.tip _ allocated bare unused
  have links := sameLinks_stepPlace s
  have grown : sum ≤ endWord (code s.cursor.toNat) := by
    rw [endWord, first]
    exact Nat.le_add_right _ _
  exact {
    numbered := filled.numbered.of_sameLinks links
    used := fun k hk used => by
      by_cases cursor : k = s.cursor.toNat
      · rw [cursor]
      · rw [used_stepPlace_other cursor] at used
        exact (filled.used k hk used).trans grown
    explored := fun k hk visited => absurd visited (passed k hk)
    halfOpen := fun k hk h => below k hk ((halfOpen_congr links k).1 h)
    nested := fun j k hj hk openJ openK =>
      filled.nested j k hj hk ((halfOpen_congr links j).1 openJ) ((halfOpen_congr links k).1 openK)
    tip := fun k hk barren free => by
      by_cases cursor : k = s.cursor.toNat
      · rw [cursor, used_stepPlace_cursor] at free
        cases free
      · rw [links.childless] at barren
        rw [used_stepPlace_other cursor] at free
        exact absurd (only k hk barren free) cursor }

/-- DL_NEW and DR_NEW (R89, R91), when the new node begins at `sum` and the half-open nodes above it have their free half past the
cursor's node. -/
theorem newChild {b : Bool} {d : Nat} (grow : CanGrow s b d) (first : firstWord (extendCode (code s.cursor.toNat) b) = sum)
    (below : ∀ j, j < s.alloc.toNat → j ≠ s.cursor.toNat → HalfOpen (nodeAt s j) →
      endWord (code s.cursor.toNat) ≤ midWord (code j)) (pass : s.order ≠ 0)
    (only : OnlyTip s) :
    Filled (Machine.newChild s b) (codeWithChild s code b) sum := by
  have short := filled.numbered.short_of_canGrow grow
  have new := nodeAt_newChild_alloc (b := b) grow.allocated
  exact {
    numbered := filled.numbered.newChild grow
    used := fun k hk used => by
      obtain old | rfl := grow.lt_cases hk
      · rw [used_newChild_old old] at used
        exact codeWithChild_old old ▸ filled.used k old used
      · rw [new] at used
        cases used
    explored := fun k hk visited => by
      obtain old | rfl := grow.lt_cases hk
      · obtain ⟨-, -, same⟩ := nodeAt_newChild_old (b := b) old
        rw [same] at visited
        exact codeWithChild_old old ▸ filled.explored k old visited
      · rw [new] at visited
        exact absurd visited.symm pass
    halfOpen := fun k hk openK => by
      obtain ⟨old, ⟨rfl, rfl⟩ | ⟨-, openK⟩⟩ := grow.halfOpen_cases hk openK <;> rw [codeWithChild_old old]
      · rw [firstWord_extendCode short, if_neg Bool.false_ne_true] at first
        exact first ▸ Nat.le_add_right _ _
      · exact filled.halfOpen k old openK
    nested := fun j k hj hk openJ openK ne => by
      obtain ⟨oldJ, casesJ⟩ := grow.halfOpen_cases hj openJ
      obtain ⟨oldK, casesK⟩ := grow.halfOpen_cases hk openK
      rw [codeWithChild_old oldJ, codeWithChild_old oldK]
      obtain ⟨rfl, -⟩ | ⟨awayJ, openJ⟩ := casesJ
      · obtain ⟨rfl, -⟩ | ⟨awayK, openK⟩ := casesK
        · exact absurd rfl ne
        · exact .inl (below k oldK awayK openK)
      · obtain ⟨rfl, -⟩ | ⟨awayK, openK⟩ := casesK
        · exact .inr (below j oldJ awayJ openJ)
        · exact filled.nested j k oldJ oldK openJ openK ne
    tip := fun k hk bare unused => by
      obtain old | rfl := grow.lt_cases hk
      · by_cases cursor : k = s.cursor.toNat
        · rw [cursor, childless_newChild_cursor] at bare
          cases bare
        · rw [nodeAt_newChild_other old cursor] at bare unused
          exact absurd (only k old bare unused) cursor
      · rw [codeWithChild_new]
        refine ⟨first, fun j hj openJ => ?_⟩
        obtain ⟨old, ⟨rfl, rfl⟩ | ⟨away, openJ⟩⟩ := grow.halfOpen_cases hj openJ <;> rw [codeWithChild_old old]
        · rw [endWord_extendCode short, if_neg Bool.false_ne_true]
        · exact (endWord_extendCode_le short b).trans (below j old away openJ) }

/-- A left child is made under a childless node, which begins at `sum` (R89). -/
theorem leftChild {d : Nat} (grow : CanGrow s false d) (pass : s.order ≠ 0)
    (only : OnlyTip s) :
    Filled (Machine.newChild s false) (codeWithChild s code false) sum := by
  obtain ⟨first, below⟩ := filled.tip _ grow.allocated grow.bare grow.unused
  refine filled.newChild grow ?_ (fun j hj _ => below j hj) pass only
  rw [firstWord_extendCode (filled.numbered.short_of_canGrow grow), if_neg Bool.false_ne_true, first]

/-- A right child is made beside a left one that is filled: of two half-open nodes the one further left ends before the other's free
half, and this one's free half begins at `sum` (R91). -/
theorem rightChild {d : Nat} {l : NodeIdx} (grow : CanGrow s true d) (left : (here s).left = some l) (closed : enterable s l = false)
    (pass : s.order ≠ 0)
    (only : OnlyTip s) :
    Filled (Machine.newChild s true) (codeWithChild s code true) sum := by
  have short := filled.numbered.short_of_canGrow grow
  have down : edge (nodeAt s s.cursor.toNat) false = some l := left
  have openHere : HalfOpen (nodeAt s s.cursor.toNat) := ⟨grow.leftFirst rfl, grow.free⟩
  obtain ⟨-, inside, -⟩ := (grow.tree.linked _ grow.allocated).child false l down
  have filledLeft := filled.endWord_le_of_not_enterable inside closed
  rw [filled.numbered.child _ false l grow.allocated down, endWord_extendCode short, if_neg Bool.false_ne_true] at filledLeft
  have middle : midWord (code s.cursor.toNat) = sum := le_antisymm filledLeft (filled.halfOpen _ grow.allocated openHere)
  refine filled.newChild grow ?_ (fun j hj away openJ => ?_) pass only
  · rw [firstWord_extendCode short, if_pos rfl, middle]
  · obtain before | after := filled.nested j _ hj grow.allocated openJ openHere away
    · obtain ⟨x, hx⟩ := Option.ne_none_iff_exists'.1 openJ.1
      have strict := midWord_lt_endWord (filled.numbered.short grow.tree (b := false) hj hx)
      have past := filled.halfOpen j hj openJ
      omega
    · exact after

end Filled

end Sys2Proof.Machine
end

section
/-! SUPPORT. The values a build has placed (R87), the lengths it has still to place (R17, R83), and that each engine turn places what
R68 says. -/

namespace Sys2Proof.Machine

/-! ## The values placed -/

/-- The values of the code lengths `ls` are placed: value `m` stands at a used node as deep as its length, which begins at the Kraft sum
of the lengths before it (R68, R87). -/
def CarriesCodes (s : State) (code : Nat → Nat × Nat) (ls : List Nat) : Prop :=
  ∀ m l, ls[m]? = some l → ∃ k, k < s.alloc.toNat ∧ (nodeAt s k).used = true ∧ (nodeAt s k).value = valAt s m ∧
    (code k).1 = l ∧ firstWord (code k) = codeSum (ls.take m)

theorem value_ascendTo (s : State) (p : NodeIdx) (k : Nat) : (nodeAt (ascendTo s p) k).value = (nodeAt s k).value := by
  rw [nodeAt_ascendTo]
  split
  · next h => rw [h, here]
  · rfl

theorem visited_stepPlace (s : State) (k : Nat) : (nodeAt (stepPlace s) k).visited = (nodeAt s k).visited := by
  rw [nodeAt_stepPlace]
  split
  · next h => rw [h, here]
  · rfl

namespace CarriesCodes

variable {s t : State} {code : Nat → Nat × Nat} {ls : List Nat} (carries : CarriesCodes s code ls)
include carries

/-- Values stay placed while used nodes keep their value and their code. -/
theorem of_kept {code' : Nat → Nat × Nat} (vals : t.vals = s.vals) (alloc : s.alloc.toNat ≤ t.alloc.toNat)
    (kept : ∀ k, k < s.alloc.toNat → (nodeAt s k).used = true →
      (nodeAt t k).used = true ∧ (nodeAt t k).value = (nodeAt s k).value ∧ code' k = code k) : CarriesCodes t code' ls := by
  intro m l listed
  obtain ⟨k, allocated, used, value, length, first⟩ := carries m l listed
  obtain ⟨used', value', same⟩ := kept k allocated used
  exact ⟨k, allocated.trans_le alloc, used', by rw [value', value, valAt_congr vals], by rw [same, length], by rw [same, first]⟩

theorem of_nodes (nodes : t.nodes = s.nodes) (alloc : t.alloc = s.alloc) (vals : t.vals = s.vals) : CarriesCodes t code ls :=
  carries.of_kept vals (le_of_eq (by rw [alloc])) fun k _ used => by
    rw [nodeAt_congr nodes]
    exact ⟨used, rfl, rfl⟩

theorem ascend (p : NodeIdx) : CarriesCodes (ascendTo s p) code ls :=
  carries.of_kept rfl (le_refl _) fun k _ used => ⟨(used_ascendTo s p k).trans used, value_ascendTo s p k, rfl⟩

theorem newChild {b : Bool} {d : Nat} (grow : CanGrow s b d) :
    CarriesCodes (Machine.newChild s b) (codeWithChild s code b) ls :=
  carries.of_kept rfl (by rw [grow.alloc_toNat]; exact Nat.le_succ _) fun k old used => by
    have away : k ≠ s.cursor.toNat := by
      rintro rfl
      exact absurd (used.symm.trans grow.unused) (by simp)
    rw [nodeAt_newChild_other old away]
    exact ⟨used, rfl, codeWithChild_old old⟩

/-- PLACE adds the value of the next length. -/
theorem place {l : Nat} (allocated : s.cursor.toNat < s.alloc.toNat) (unused : (here s).used = false)
    (count : ls.length = s.vidx.toNat) (length : (code s.cursor.toNat).1 = l)
    (first : firstWord (code s.cursor.toNat) = codeSum ls) : CarriesCodes (stepPlace s) code (ls ++ [l]) := by
  have before : CarriesCodes (stepPlace s) code ls := carries.of_kept rfl (le_refl _) fun k _ used => by
    have away : k ≠ s.cursor.toNat := by
      rintro rfl
      exact absurd (used.symm.trans unused) (by simp)
    rw [nodeAt_stepPlace, if_neg away]
    exact ⟨used, rfl, rfl⟩
  intro m x listed
  rw [List.getElem?_append] at listed
  split at listed
  · next old =>
    rw [List.take_append_of_le_length old.le]
    exact before m x listed
  · next new =>
    obtain ⟨last, rfl⟩ : m = ls.length ∧ l = x := by
      rw [List.getElem?_singleton] at listed
      split at listed
      · exact ⟨by omega, Option.some.inj listed⟩
      · cases listed
    refine ⟨s.cursor.toNat, allocated, used_stepPlace_cursor s, ?_, length, ?_⟩
    · rw [nodeAt_stepPlace, if_pos rfl, last, count]
      rfl
    · rw [last, List.take_left, first]

end CarriesCodes

/-! ## The lengths still to place -/

/-- The code lengths a walk has still to place: what is left of the counts of bucket `i` and those after it (R17, R68). -/
def pendingLengths (s : State) : List Nat :=
  (List.range' s.i.toNat (s.nlen.toNat - s.i.toNat)).flatMap fun k => List.replicate (cntAt s k).toNat (k + 1)

theorem pendingLengths_done {s : State} (done : s.i.toNat = s.nlen.toNat) : pendingLengths s = [] := by
  simp [pendingLengths, done]

/-- The lengths to place are those of bucket `i`, then those of the buckets after it. -/
theorem pendingLengths_cons {s : State} (more : s.i.toNat < s.nlen.toNat) : pendingLengths s =
    List.replicate (cntAt s s.i.toNat).toNat (s.i.toNat + 1) ++
      (List.range' (s.i.toNat + 1) (s.nlen.toNat - (s.i.toNat + 1))).flatMap fun k => List.replicate (cntAt s k).toNat (k + 1) := by
  rw [pendingLengths, show s.nlen.toNat - s.i.toNat = s.nlen.toNat - (s.i.toNat + 1) + 1 by omega, List.range'_succ, List.flatMap_cons]

/-- SKIP leaves out a bucket that has nothing left (R86). -/
theorem pendingLengths_stepSkip {s : State} (more : s.i.toNat < s.nlen.toNat) (next : (stepSkip s).i.toNat = s.i.toNat + 1)
    (empty : cntAt s s.i.toNat = 0) : pendingLengths (stepSkip s) = pendingLengths s := by
  rw [pendingLengths_cons more, empty, pendingLengths, next]
  rfl

/-- PLACE takes the first length (R87). -/
theorem pendingLengths_stepPlace {s : State} (more : s.i.toNat < s.nlen.toNat) (bucket : s.i.toNat < 16)
    (wanted : cntAt s s.i.toNat ≠ 0) : pendingLengths s = (s.i.toNat + 1) :: pendingLengths (stepPlace s) := by
  have taken : cntAt (stepPlace s) s.i.toNat = cntAt s s.i.toNat - 1 := by
    rw [cntAt_of_lt (stepPlace s) _ bucket]
    exact (stepPlace_counts s ⟨s.i.toNat, bucket⟩).trans (if_pos rfl)
  have others : ∀ k, s.i.toNat < k → cntAt (stepPlace s) k = cntAt s k := by
    intro k hk
    rw [cntAt, cntAt, stepPlace, Vector.getElem?_setIfInBounds_ne (Nat.ne_of_lt hk)]
  have one : (cntAt s s.i.toNat).toNat = (cntAt s s.i.toNat - 1).toNat + 1 := by
    have positive : (cntAt s s.i.toNat).toNat ≠ 0 := fun zero => wanted (BitVec.eq_of_toNat_eq zero)
    rw [BitVec.toNat_sub_of_le (by rw [BitVec.le_def]; exact Nat.one_le_iff_ne_zero.2 positive)]
    exact (Nat.sub_add_cancel (Nat.one_le_iff_ne_zero.2 positive)).symm
  rw [pendingLengths_cons more, pendingLengths_cons (s := stepPlace s) more, stepPlace_i, stepPlace_nlen, taken, one,
    List.replicate_succ, List.cons_append]
  congr 2
  exact List.flatMap_congr fun k hk => by rw [others k (List.mem_range'_1.1 hk).1]

/-- A build starts with the whole length sequence of the table to place (R68, R83). -/
theorem pendingLengths_start {s : State} (fits : s.nlen.toNat ≤ 16) :
    pendingLengths (walkInit (buildClear s)) = lengthSequence s := by
  rw [lengthSequence, List.range_eq_range']
  refine List.flatMap_congr fun k hk => ?_
  have inside : k < s.nlen.toNat := by simpa using List.mem_range'_1.1 hk
  have bucket : k < 16 := inside.trans_le fits
  rw [cntAt_of_lt _ k bucket]
  simp [inside, bucket]

/-! ## One turn of the engine -/

/-- How far a build has come: the lengths `ls` of the table are placed, the others are to come. -/
structure Progress (table : List Nat) (s : State) (code : Nat → Nat × Nat) (ls : List Nat) : Prop where
  walking : Walking s
  filled : Filled s code (codeSum ls)
  carries : CarriesCodes s code ls
  count : ls.length = s.vidx.toNat
  rest : ls ++ pendingLengths s = table

/-- A build has started with nothing placed (R83). -/
theorem Progress.start {s : State} (fits : s.nlen.toNat ≤ 16) :
    Progress (lengthSequence s) (walkInit (buildClear s)) (fun _ => (0, 0)) [] := by
  have only : ∀ k, k < (walkInit (buildClear s)).alloc.toNat → k = 0 := fun k hk => Nat.lt_one_iff.1 hk
  have root : nodeAt (walkInit (buildClear s)) 0 = rootClear := rfl
  have closed : ∀ k, k < (walkInit (buildClear s)).alloc.toNat → ¬HalfOpen (nodeAt (walkInit (buildClear s)) k) := by
    intro k hk h
    rw [only k hk, root] at h
    exact h.1 rfl
  refine ⟨walking_start fits, ?_, fun m l listed => by simp at listed, rfl, pendingLengths_start fits⟩
  exact {
    numbered := {
      root := rfl
      depth := fun k hk => by
        rw [only k hk]
        exact depthOf_root rfl
      child := fun k b x hk down => by
        rw [only k hk, root] at down
        cases b <;> cases down }
    used := fun k hk used => by
      rw [only k hk, root] at used
      cases used
    explored := fun k hk visited => by
      rw [only k hk, root, walkInit_order] at visited
      exact absurd visited (by decide)
    halfOpen := fun k hk h => absurd h (closed k hk)
    nested := fun j k hj _ h => absurd h (closed j hj)
    tip := fun k hk _ _ => ⟨Nat.zero_mul _, fun j hj h => absurd h (closed j hj)⟩ }

namespace Progress

variable {table ls : List Nat} {s : State} {code : Nat → Nat × Nat} (h : Progress table s code ls)
include h

theorem bucket (more : s.i.toNat ≠ s.nlen.toNat) : s.i.toNat < s.nlen.toNat ∧ s.i.toNat < 16 := by
  have walk := h.walking.walk
  have bucket := walk.bucket
  have buckets := walk.buckets
  omega

theorem pass : s.order ≠ 0 := by
  intro zero
  have pass := h.walking.walk.pass
  simp [zero] at pass

theorem skip (more : s.i.toNat ≠ s.nlen.toNat) (empty : cntAt s s.i.toNat = 0) : Progress table (stepSkip s) code ls := by
  obtain ⟨lt, small⟩ := h.bucket more
  have next : (stepSkip s).i.toNat = s.i.toNat + 1 := by
    have wide : (stepSkip s).i.toNat = (s.i.toNat + 1) % 2 ^ 5 := BitVec.toNat_add _ _
    omega
  exact ⟨h.walking.skip more empty, h.filled.of_nodes rfl rfl rfl, h.carries.of_nodes rfl rfl rfl, h.count,
    (pendingLengths_stepSkip lt next empty).symm ▸ h.rest⟩

theorem descend {b : Bool} {k : NodeIdx} (more : s.i.toNat ≠ s.nlen.toNat) (wanted : cntAt s s.i.toNat ≠ 0)
    (above : s.depth.toNat ≠ s.i.toNat + 1) (down : edge (here s) b = some k) (enter : enterable s k = true) :
    Progress table (descend s k) code ls :=
  ⟨h.walking.descend more wanted above down (not_used_of_enterable enter), h.filled.of_nodes rfl rfl rfl,
    h.carries.of_nodes rfl rfl rfl, h.count, h.rest⟩

theorem ascend {r p : NodeIdx} (more : s.i.toNat ≠ s.nlen.toNat) (wanted : cntAt s s.i.toNat ≠ 0)
    (right : (here s).right = some r) (closed : enterable s r = false) (up : (here s).parent = some p) :
    Progress table (ascendTo s p) code ls :=
  ⟨h.walking.ascend more wanted (childless_false_of_edge (b := true) right) up,
    h.filled.ascend h.walking.tree h.walking.walk.allocated right closed, h.carries.ascend p, h.count, h.rest⟩

theorem leftChild (more : s.i.toNat ≠ s.nlen.toNat) (wanted : cntAt s s.i.toNat ≠ 0) (above : s.depth.toNat ≠ s.i.toNat + 1)
    (left : (here s).left = none) : Progress table (newChild s false) (codeWithChild s code false) ls := by
  have grow := h.walking.canGrow (b := false) more above left (by simp)
  exact ⟨h.walking.newChild more wanted above left (by simp), h.filled.leftChild grow h.pass h.walking.onlyTip,
    h.carries.newChild grow, h.count, h.rest⟩

theorem rightChild {l : NodeIdx} (more : s.i.toNat ≠ s.nlen.toNat) (wanted : cntAt s s.i.toNat ≠ 0)
    (above : s.depth.toNat ≠ s.i.toNat + 1) (left : (here s).left = some l) (closed : enterable s l = false)
    (right : (here s).right = none) : Progress table (newChild s true) (codeWithChild s code true) ls := by
  have leftFirst : true = true → (here s).left ≠ none := by simp [left]
  have grow := h.walking.canGrow (b := true) more above right leftFirst
  exact ⟨h.walking.newChild more wanted above right leftFirst, h.filled.rightChild grow left closed h.pass h.walking.onlyTip,
    h.carries.newChild grow, h.count, h.rest⟩

theorem place (more : s.i.toNat ≠ s.nlen.toNat) (wanted : cntAt s s.i.toNat ≠ 0) (deep : s.depth.toNat = s.i.toNat + 1) :
    Progress table (stepPlace s) code (ls ++ [s.i.toNat + 1]) := by
  obtain ⟨lt, small⟩ := h.bucket more
  obtain ⟨-, bare⟩ := h.walking.cursor_leaf deep
  have walk := h.walking.walk
  have placed := h.walking.place wanted deep
  obtain ⟨first, -⟩ := h.filled.tip _ walk.allocated bare walk.unused
  have length : (code s.cursor.toNat).1 = s.i.toNat + 1 :=
    (Option.some.inj ((h.filled.numbered.depth _ walk.allocated).symm.trans walk.depth)).trans deep
  have sum : endWord (code s.cursor.toNat) = codeSum (ls ++ [s.i.toNat + 1]) := by
    rw [endWord, first, length, codeSum_append]
  have inside := h.walking.vidx_lt deep
  have count := h.count
  have pass := walk.pass
  have next : (stepPlace s).vidx.toNat = (s.vidx.toNat + 1) % 2 ^ 17 := BitVec.toNat_add _ _
  have order : (s.order + 1).toNat = (s.order.toNat + 1) % 2 ^ 17 := BitVec.toNat_add _ _
  refine ⟨placed, ?_, h.carries.place walk.allocated walk.unused count length first, ?_, ?_⟩
  · refine sum ▸ h.filled.place walk.allocated bare walk.unused (fun k hk visited => ?_) h.walking.onlyTip
    have stamp := (walk.node k hk).stamp
    rw [← visited_stepPlace, visited] at stamp
    omega
  · rw [List.length_append, List.length_singleton]
    omega
  · rw [List.append_assoc, List.singleton_append, ← pendingLengths_stepPlace lt small wanted, h.rest]

end Progress

end Sys2Proof.Machine
end

section
/-! SUPPORT. The tree a build leaves and how MOVE reads it (R110 to R119): a canonical code leads to its value. -/

namespace Sys2Proof.Machine

/-! ## The end of a build -/

/-- What a successful build leaves: the tree with a value at the end of each canonical code, and the decoder at the root (R85, R119). -/
structure Built (table : List Nat) (t : State) (code : Nat → Nat × Nat) : Prop where
  phase : t.phase = .idle
  tree : CodeTree t
  numbered : Numbered t code
  carries : CarriesCodes t code table
  cursor : t.cursor = 0
  derr : t.derr = false
  result : t.result = noSymbol

/-- FINISH leaves all values placed (R85). -/
theorem Progress.finish {table ls : List Nat} {s : State} {code : Nat → Nat × Nat} (h : Progress table s code ls)
    (done : s.i.toNat = s.nlen.toNat) : Built table (stepFinish s) code := by
  obtain ⟨walking, filled, carries, -, rest⟩ := h
  have walk := walking.walk
  obtain ⟨-, cursor⟩ := walk.atRoot (.inl done)
  rw [pendingLengths_done done, List.append_nil] at rest
  exact ⟨rfl, walking.tree.of_nodes rfl rfl, filled.numbered.of_sameLinks (.of_nodes rfl rfl),
    rest ▸ carries.of_nodes rfl rfl rfl, cursor, walk.derr, walk.result⟩

/-- A build that is under way, has succeeded, or has failed. -/
def OnTheWay (table : List Nat) (s : State) : Prop :=
  (s.phase = .build ∧ ∃ code ls, Progress table s code ls) ∨
    (s.phase = .idle ∧ (s.built = true → ∃ code, Built table s code))

theorem Progress.onTheWay {table ls : List Nat} {s : State} {code : Nat → Nat × Nat} (h : Progress table s code ls) :
    OnTheWay table s := .inl ⟨h.walking.phase, code, ls, h⟩

theorem Progress.fail {table ls : List Nat} {s : State} {code : Nat → Nat × Nat} (h : Progress table s code ls) (e : BuildError) :
    OnTheWay table (raise (.build e) s) := by
  obtain ⟨-, phase, -, built, -⟩ := raise_build e s
  exact .inr ⟨phase, fun success => absurd (success.symm.trans (built.trans h.walking.walk.built)) (by simp)⟩

/-- Whichever test of the dispatch table holds, the step it names goes on with the build or ends it (R84). -/
theorem Progress.engineEffect {table ls : List Nat} {s : State} {code : Nat → Nat × Nat} (h : Progress table s code ls) :
    OnTheWay table (engineEffect (engineChoice s) s) := by
  obtain ⟨done, choice⟩ | ⟨more, empty, choice⟩ | ⟨more, wanted, ⟨deep, -, choice⟩ | ⟨-, -, choice⟩ | ⟨above,
    ⟨left, choice⟩ | ⟨l, left, ⟨enter, choice⟩ | ⟨closed, ⟨right, choice⟩ | ⟨r, right, ⟨enter, choice⟩ | ⟨filled,
    ⟨p, up, choice⟩ | ⟨-, choice⟩⟩⟩⟩⟩⟩⟩ := engineChoice_cases s <;> rw [choice, Machine.engineEffect]
  · exact .inr ⟨rfl, fun _ => ⟨code, h.finish done⟩⟩
  · exact (h.skip more empty).onTheWay
  · exact (h.place more wanted deep).onTheWay
  · exact h.fail .tooFewValues
  · rw [stepDlNew_eq]
    exact (h.leftChild more wanted above left).onTheWay
  · rw [stepDlOld_of_left left]
    exact (h.descend (b := false) more wanted above left enter).onTheWay
  · rw [stepDrNew_eq]
    exact (h.rightChild more wanted above left closed right).onTheWay
  · rw [stepDrOld_of_right right]
    exact (h.descend (b := true) more wanted above right enter).onTheWay
  · rw [stepAscend_of_parent up]
    exact (h.ascend more wanted right filled up).onTheWay
  · exact h.fail .infeasible

theorem OnTheWay.engineTurns {table : List Nat} (n : Nat) {s : State} (h : OnTheWay table s) :
    OnTheWay table (engineTurns n s) := by
  induction n generalizing s with
  | zero => exact h
  | succ n ih =>
    refine ih ?_
    obtain ⟨build, code, ls, progress⟩ | ⟨idle, success⟩ := h
    · rw [engineTurn_build s build]
      exact progress.engineEffect
    · rw [engineTurn_idle s idle]
      exact .inr ⟨idle, success⟩

/-- A build of a table that is not too large is on its way from its start (R81 to R83). -/
theorem onTheWay_afterBuild {s : State} (fits : s.nlen.toNat ≤ 16) (n : Nat) : OnTheWay (lengthSequence s) (afterBuild s n) := by
  obtain ⟨large, -⟩ | ⟨-, start⟩ := buildStart_cases s
  · exact absurd fits (Nat.not_le.2 large)
  · rw [afterBuild, start]
    exact (Progress.start fits).onTheWay.engineTurns n

/-- A table that is too large is not built (R82). -/
theorem fits_of_built {s : State} {n : Nat} (built : (afterBuild s n).built = true) : s.nlen.toNat ≤ 16 := by
  obtain ⟨-, start⟩ | ⟨fits, -⟩ := buildStart_cases s
  · rw [afterBuild, start, engineTurns_idle n _ rfl] at built
    cases built
  · exact fits

theorem engineTurns_vals (n : Nat) (s : State) : (engineTurns n s).vals = s.vals := by
  induction n generalizing s with
  | zero => rfl
  | succ n ih => exact (ih _).trans (sameTables_engineTurn s).vals

/-- A build does not touch VAL (R80). -/
theorem afterBuild_vals (s : State) (n : Nat) : (afterBuild s n).vals = s.vals := by
  rw [afterBuild, engineTurns_vals]
  obtain ⟨-, start⟩ | ⟨-, start⟩ := buildStart_cases s <;> rw [start] <;> rfl

/-! ## Rows of MOVE commands -/

theorem afterMoves_singleton {s : State} (idle : s.phase = .idle) (b : Bool) :
    afterMoves [b] s = ([(moveStep b s).result], moveStep b s) := by
  rw [afterMoves, exec_idle _ s idle]
  rfl

theorem afterMoves_append (p r : List Bool) (s : State) :
    afterMoves (p ++ r) s =
      ((afterMoves p s).1 ++ (afterMoves r (afterMoves p s).2).1, (afterMoves r (afterMoves p s).2).2) := by
  induction p generalizing s with
  | nil => rfl
  | cons b p ih =>
    obtain ⟨t, answer⟩ := exec_answers (.move b) s
    simp only [List.cons_append, afterMoves, answer, ih]

/-- The decoder of an idle block at a node, with no symbol yet. -/
def standingAt (t : State) (p : NodeIdx) : State := { t with cursor := p, result := noSymbol }

/-- MOVE onto an internal node (R114). -/
theorem moveStep_standingAt_inner {t : State} {b : Bool} {p k : NodeIdx} (derr : t.derr = false)
    (down : edge (nodeAt t p.toNat) b = some k) (inner : childless (nodeAt t k.toNat) = false) :
    moveStep b (standingAt t p) = standingAt t k := by
  have down : edge (here (standingAt t p)) b = some k := down
  have inner : childless (nodeAt (standingAt t p) k.toNat) = false := inner
  have derr : (standingAt t p).derr = false := derr
  simp only [moveStep, derr, down, inner]
  rfl

/-- MOVE onto a leaf (R115). -/
theorem moveStep_standingAt_leaf {t : State} {b : Bool} {p k : NodeIdx} (derr : t.derr = false)
    (down : edge (nodeAt t p.toNat) b = some k) (leaf : childless (nodeAt t k.toNat) = true) :
    moveStep b (standingAt t p) = { t with cursor := 0, result := symbolResult (nodeAt t k.toNat).value } := by
  have down : edge (here (standingAt t p)) b = some k := down
  have leaf : childless (nodeAt (standingAt t p) k.toNat) = true := leaf
  have derr : (standingAt t p).derr = false := derr
  simp only [moveStep, derr, down, leaf]
  rfl

namespace Built

variable {table : List Nat} {t : State} {code : Nat → Nat × Nat} (h : Built table t code)
include h

theorem standingAt_root : standingAt t 0 = t := by
  rw [standingAt, ← h.result, ← h.cursor]

/-- The bits of an internal node's code lead to it and give no symbol (R114), by induction on its depth. -/
theorem afterMoves_inner {k : NodeIdx} (allocated : k.toNat < t.alloc.toNat) (inner : childless (nodeAt t k.toNat) = false) :
    afterMoves (codeBits (code k.toNat)) t = (List.replicate (code k.toNat).1 noSymbol, standingAt t k) := by
  generalize depth : (code k.toNat).1 = d
  induction d generalizing k with
  | zero =>
    have root : k = 0 := by
      by_contra ne
      obtain ⟨p, b, -, -, -, extended⟩ := h.numbered.from_parent h.tree allocated fun zero => ne (BitVec.eq_of_toNat_eq zero)
      simp [extended, extendCode] at depth
    rw [codeBits, depth, root, h.standingAt_root]
    rfl
  | succ d ih =>
    have ne : k.toNat ≠ 0 := by
      intro root
      rw [root, h.numbered.root] at depth
      cases depth
    obtain ⟨p, b, inside, parentInner, down, extended⟩ := h.numbered.from_parent h.tree allocated ne
    rw [BitVec.ofNat_toNat, BitVec.setWidth_eq] at down
    rw [extended] at depth ⊢
    rw [codeBits_extendCode, afterMoves_append, ih inside parentInner (Nat.succ.inj depth),
      afterMoves_singleton (s := standingAt t p) h.phase, moveStep_standingAt_inner h.derr down inner, List.replicate_succ']
    rfl

/-- The bits of a leaf's code give no symbol but on the last bit, which gives the leaf's value (R115, R119). -/
theorem afterMoves_leaf {k : Nat} (allocated : k < t.alloc.toNat) (ne : k ≠ 0) (leaf : childless (nodeAt t k) = true) :
    afterMoves (codeBits (code k)) t = (List.replicate ((code k).1 - 1) noSymbol ++ [symbolResult (nodeAt t k).value],
      { t with cursor := 0, result := symbolResult (nodeAt t k).value }) := by
  obtain ⟨p, b, inside, parentInner, down, extended⟩ := h.numbered.from_parent h.tree allocated ne
  have index : (BitVec.ofNat 17 k).toNat = k := toNat_of_allocated allocated
  have move := moveStep_standingAt_leaf h.derr down (by rwa [index])
  rw [index] at move
  rw [extended, codeBits_extendCode, afterMoves_append, h.afterMoves_inner inside parentInner,
    afterMoves_singleton (s := standingAt t p) h.phase, move]
  rfl

end Built

/-- Settles O55: the value of code `j` stands at a leaf whose code starts where canonical code `j` does and is as long. -/
theorem canonicalCodesDecodeToTheirValues : Obligations.CanonicalCodesDecodeToTheirValues := by
  intro s n j c _ idle built listed
  have fits := fits_of_built built
  obtain ⟨build, -⟩ | ⟨-, success⟩ := onTheWay_afterBuild fits n
  · exact absurd (idle.symm.trans build) (by simp)
  · obtain ⟨code, result⟩ := success built
    obtain ⟨length, first⟩ := canonicalCodes_getElem? (lengthSequence_sorted s) (lengthSequence_le fits) listed
    obtain ⟨k, allocated, used, value, sameLength, sameFirst⟩ := result.carries j c.1 length
    have same : code k = c := code_eq_of_firstWord sameLength (sameFirst.trans first.symm)
    have ne : k ≠ 0 := by
      rintro rfl
      exact absurd (used.symm.trans result.tree.rootUnused) (by simp)
    have moves := result.afterMoves_leaf allocated ne ((result.tree.linked k allocated).leaf used)
    rw [same, value, valAt_congr (afterBuild_vals s n)] at moves
    exact moves

end Sys2Proof.Machine
end

section
/-! SUPPORT. BUILD start (R80 to R83): the two ways it goes, and what it leaves alone. -/

namespace Sys2Proof.Machine

/-- BUILD on an idle block is its start step (R80). -/
theorem exec_build_idle {s : State} (idle : s.phase = .idle) : exec .build s = .next (buildStart s) := exec_idle .build s idle

theorem buildStart_fits {s : State} (fits : s.nlen.toNat ≤ 16) : buildStart s = walkInit (buildClear s) := by
  obtain ⟨large, -⟩ | ⟨-, start⟩ := buildStart_cases s
  · exact absurd fits (Nat.not_le.2 large)
  · exact start

theorem buildStart_large {s : State} (large : 16 < s.nlen.toNat) :
    buildStart s = raise (.build .tableTooLarge) (buildClear s) := by
  obtain ⟨-, start⟩ | ⟨fits, -⟩ := buildStart_cases s
  · exact start
  · exact absurd fits (Nat.not_le.2 large)

/-- Settles O16: the discard, the cleared flags and the walk's registers, the counts bucket by bucket. -/
theorem buildStartsTheWalk : Obligations.BuildStartsTheWalk := by
  intro s idle fits
  refine ⟨loadedCounts s.nlen s.len, fun k => loadedCounts_getElem _ _ _ k.isLt, ?_⟩
  rw [exec_build_idle idle, buildStart_fits fits]
  rfl

/-- Settles O17: the discard and the cleared flags, then the error. -/
theorem buildRejectsTooLargeTable : Obligations.BuildRejectsTooLargeTable := by
  intro s idle large
  rw [exec_build_idle idle, buildStart_large large]
  rfl

/-- BUILD start leaves the tables and the model's own fields alone, and in the node memory nothing but the bare root (R81, R51). -/
theorem buildStart_keeps (s : State) : SameTables s (buildStart s) ∧ (buildStart s).turns = s.turns ∧
    (buildStart s).rdata = s.rdata ∧ (buildStart s).draws = s.draws ∧ (buildStart s).nodes = [(0, rootClear)] := by
  obtain ⟨-, start⟩ | ⟨-, start⟩ := buildStart_cases s <;> rw [start] <;> exact ⟨⟨rfl, rfl, rfl, rfl⟩, rfl, rfl, rfl, rfl⟩

/-- Settles O18: a busy block is left as it is, an idle one takes the start step. -/
theorem buildFrame : Obligations.BuildFrame := by
  intro s t answer
  obtain idle | build := phase_cases s
  · rw [exec_build_idle idle] at answer
    cases answer
    obtain ⟨⟨nlen, len, nval, vals⟩, turns, rdata, draws, nodes⟩ := buildStart_keeps s
    exact ⟨nlen, len, nval, valAt_congr vals, turns, rdata, draws, fun _ => nodes⟩
  · rw [exec_busy .build s build] at answer
    cases answer
    exact ⟨rfl, rfl, rfl, fun _ => rfl, rfl, rfl, rfl, fun idle => absurd (idle.symm.trans build) (by decide)⟩

end Sys2Proof.Machine
end

section
/-! SUPPORT. One engine step at a time (R84 to R96): which tests lead to each choice of the dispatch table, and the effect of each
choice. -/

namespace Sys2Proof.Machine

/-! ## The dispatch table -/

/-- Tests 1 and 2 of R84 fail: bucket `i` has a code left to place. -/
abbrev Wanted (s : State) : Prop := s.i.toNat ≠ s.nlen.toNat ∧ cntAt s s.i.toNat ≠ 0

/-- Tests 1 to 4 of R84 fail: the cursor is shallower than required. -/
abbrev Above (s : State) : Prop := Wanted s ∧ s.depth.toNat ≠ s.i.toNat + 1

/-- What the tests of R84 have found by the time each step is taken. -/
def TestsLeadTo (s : State) : EngineStep → Prop
  | .finish => s.i.toNat = s.nlen.toNat
  | .skip => s.i.toNat ≠ s.nlen.toNat ∧ cntAt s s.i.toNat = 0
  | .place => Wanted s ∧ s.depth.toNat = s.i.toNat + 1 ∧ s.vidx.toNat < s.nval.toNat
  | .failTooFewValues => Wanted s ∧ s.depth.toNat = s.i.toNat + 1 ∧ s.nval.toNat ≤ s.vidx.toNat
  | .dlNew => Above s ∧ (here s).left = none
  | .dlOld => Above s ∧ ∃ l, (here s).left = some l ∧ enterable s l = true
  | .drNew => Above s ∧ ∃ l, (here s).left = some l ∧ enterable s l = false ∧ (here s).right = none
  | .drOld => Above s ∧ ∃ l r, (here s).left = some l ∧ enterable s l = false ∧ (here s).right = some r ∧ enterable s r = true
  | .ascend => Above s ∧ ∃ l r p, (here s).left = some l ∧ enterable s l = false ∧ (here s).right = some r ∧
      enterable s r = false ∧ (here s).parent = some p
  | .failInfeasible => Above s ∧ ∃ l r, (here s).left = some l ∧ enterable s l = false ∧ (here s).right = some r ∧
      enterable s r = false ∧ (here s).parent = none

/-- The tests behind the choice the engine makes. -/
theorem testsLeadTo_engineChoice (s : State) : TestsLeadTo s (engineChoice s) := by
  obtain ⟨done, choice⟩ | ⟨more, empty, choice⟩ | ⟨more, wanted, ⟨deep, supply, choice⟩ | ⟨deep, short, choice⟩ | ⟨above,
    ⟨left, choice⟩ | ⟨l, left, ⟨enter, choice⟩ | ⟨closed, ⟨right, choice⟩ | ⟨r, right, ⟨enter, choice⟩ | ⟨filled,
    ⟨p, up, choice⟩ | ⟨root, choice⟩⟩⟩⟩⟩⟩⟩ := engineChoice_cases s <;> rw [choice]
  · exact done
  · exact ⟨more, empty⟩
  · exact ⟨⟨more, wanted⟩, deep, supply⟩
  · exact ⟨⟨more, wanted⟩, deep, short⟩
  · exact ⟨⟨⟨more, wanted⟩, above⟩, left⟩
  · exact ⟨⟨⟨more, wanted⟩, above⟩, l, left, enter⟩
  · exact ⟨⟨⟨more, wanted⟩, above⟩, l, left, closed, right⟩
  · exact ⟨⟨⟨more, wanted⟩, above⟩, l, r, left, closed, right, enter⟩
  · exact ⟨⟨⟨more, wanted⟩, above⟩, l, r, p, left, closed, right, filled, up⟩
  · exact ⟨⟨⟨more, wanted⟩, above⟩, l, r, left, closed, right, filled, root⟩

theorem tests_of_choice {s : State} {e : EngineStep} (choice : engineChoice s = e) : TestsLeadTo s e :=
  choice ▸ testsLeadTo_engineChoice s

/-- Tests 6 and 8 of R84 in full. -/
theorem enterable_iff (s : State) (k : NodeIdx) :
    enterable s k = true ↔ (nodeAt s k.toNat).used = false ∧ (nodeAt s k.toNat).visited ≠ s.order := by
  simp [enterable]

/-- With no event left a building block takes the engine's step (R10, R84). -/
theorem step_engine_build {s : State} (build : s.phase = .build) (next : s.turns = []) :
    step s = .next (engineEffect (engineChoice s) s) := by
  rw [step, next, ← engineTurn_build s build]

/-- At an engine event it takes the same step, the later events kept (R10). -/
theorem step_engine_event {s : State} {ts : List Turn} (build : s.phase = .build) (next : s.turns = .engine :: ts) :
    step s = .next { engineEffect (engineChoice s) s with turns := ts } := by
  rw [step, next, ← engineEffect_turns _ s ts]
  exact congrArg _ (engineTurn_build { s with turns := ts } build)

/-- Settles O19: the step from the two forms of the engine's turn, the iffs from the tests that lead to each choice. -/
theorem dispatchTakesTheFirstTestThatHolds : Obligations.DispatchTakesTheFirstTestThatHolds := by
  intro s
  dsimp only
  refine ⟨step_engine_build, fun build ts next => ⟨?_, engineEffect (engineChoice s) { s with turns := [] }, ?_, ?_⟩, ?_⟩
  · rw [step_engine_event build next, engineEffect_turns _ s ts]
  · exact step_engine_build (s := { s with turns := [] }) build rfl
  · rw [step_engine_event build next, engineEffect_turns _ s []]
  have node : nodeAt s s.cursor.toNat = here s := rfl
  have table := engineChoice_cases s
  simp only [BitVec.ofNat_eq_ofNat] at table
  simp only [node, ← enterable_iff]
  obtain ⟨done, choice⟩ | ⟨more, empty, choice⟩ | ⟨more, wanted, ⟨deep, supply, choice⟩ | ⟨deep, short, choice⟩ | ⟨above,
    ⟨left, choice⟩ | ⟨l, left, ⟨enter, choice⟩ | ⟨closed, ⟨right, choice⟩ | ⟨r, right, ⟨enter, choice⟩ | ⟨filled,
    ⟨p, up, choice⟩ | ⟨root, choice⟩⟩⟩⟩⟩⟩⟩ := table
  · simp [choice, done]
  · simp [choice, more, empty]
  · simp [choice, more, wanted, deep, supply]
  · simp [choice, more, wanted, deep, short]
  · simp [choice, more, wanted, above, left]
  · simp [choice, more, wanted, above, left, enter]
  · simp [choice, more, wanted, above, left, closed, right]
  · simp [choice, more, wanted, above, left, closed, right, enter]
  · simp [choice, more, wanted, above, left, closed, right, filled, up]
  · simp [choice, more, wanted, above, left, closed, right, filled, root]

/-! ## The effect of each choice -/

/-- What a chosen step does when no event is left: its tests hold and its effect is the next state. -/
theorem step_of_choice {s : State} {e : EngineStep} (build : s.phase = .build) (next : s.turns = []) (choice : engineChoice s = e) :
    TestsLeadTo s e ∧ step s = .next (engineEffect e s) :=
  ⟨tests_of_choice choice, choice ▸ step_engine_build build next⟩

theorem engineChoice_finish {s : State} (done : s.i.toNat = s.nlen.toNat) : engineChoice s = .finish := by
  rw [engineChoice, if_pos done]

theorem engineChoice_skip {s : State} (more : s.i.toNat ≠ s.nlen.toNat) (empty : cntAt s s.i.toNat = 0) :
    engineChoice s = .skip := by
  rw [engineChoice, if_neg more, if_pos empty]

theorem engineChoice_place {s : State} (wanted : Wanted s) (deep : s.depth.toNat = s.i.toNat + 1)
    (supply : s.vidx.toNat < s.nval.toNat) : engineChoice s = .place := by
  obtain ⟨more, wanted⟩ := wanted
  rw [engineChoice, if_neg more, if_neg wanted, if_pos deep, if_pos supply]

/-- Settles O20: FINISH is chosen first; the invariant puts the cursor at the root between buckets. -/
theorem engineFinishes : Obligations.EngineFinishes := by
  intro s build next done
  obtain ⟨-, answer⟩ := step_of_choice build next (engineChoice_finish done)
  refine ⟨answer, fun inv => ?_⟩
  have walk := (Building.of_inv inv build).walk
  obtain ⟨depth, cursor⟩ := walk.atRoot (.inl done)
  exact ⟨walk.berr, cursor, depth⟩

/-- A bucket number below NLEN does not wrap when it goes up by one (R97(a)). -/
theorem Walk.bucket_succ {s : State} (walk : Walk s) (more : s.i.toNat ≠ s.nlen.toNat) :
    s.i.toNat + 1 ≤ 16 ∧ (s.i + 1).toNat = s.i.toNat + 1 := by
  have bucket := walk.bucket
  have buckets := walk.buckets
  have wide : (s.i + 1).toNat = (s.i.toNat + 1) % 2 ^ 5 := BitVec.toNat_add _ _
  omega

/-- Settles O21: the walk is at the root at an empty bucket, and below NLEN the bucket number does not wrap. -/
theorem engineSkipsAnEmptyBucket : Obligations.EngineSkipsAnEmptyBucket := by
  intro s build next more empty
  obtain ⟨-, answer⟩ := step_of_choice build next (engineChoice_skip (Nat.ne_of_lt more) empty)
  refine ⟨answer, fun inv => ?_⟩
  have walk := (Building.of_inv inv build).walk
  obtain ⟨depth, cursor⟩ := walk.atRoot (.inr empty)
  obtain ⟨-, succ⟩ := walk.bucket_succ (Nat.ne_of_lt more)
  exact ⟨depth, cursor, succ⟩

/-- Settles O22: the node under the cursor is rewritten and the count of bucket `i` taken down; at the bucket's depth the invariant makes
that node a childless one other than the root. -/
theorem enginePlacesTheNextValue : Obligations.EnginePlacesTheNextValue := by
  intro s build next more positive deep supply
  have wanted : cntAt s s.i.toNat ≠ 0 := fun zero => by simp [zero] at positive
  obtain ⟨-, answer⟩ := step_of_choice build next (engineChoice_place ⟨Nat.ne_of_lt more, wanted⟩ deep supply)
  refine ⟨fun inv => ?_, stepPlace s, answer, rfl, ?_, fun k other => ?_, fun k => ?_⟩
  · have building := Building.of_inv inv build
    obtain ⟨nonroot, bare⟩ := building.cursor_leaf deep
    exact ⟨fun root => nonroot (by simp [root]), bare, building.walk.unused⟩
  · rw [nodeAt_stepPlace, if_pos rfl]
    rfl
  · rw [nodeAt_stepPlace, if_neg other]
  · rw [stepPlace_counts]
    simp only [eq_comm (a := k.val)]
    split
    · next bucket =>
      rw [bucket, cntAt_of_lt s k k.isLt]
      rfl
    · rfl

/-- Settles O23: both steps are the failure sequence with their own code. -/
theorem engineFailures : Obligations.EngineFailures := by
  intro s build next
  exact ⟨fun choice => (step_of_choice build next choice).2, fun choice => (step_of_choice build next choice).2⟩

/-- A child is made at index `alloc`, its pointer is written under the cursor, and no other node is (R89, R91, R96). -/
theorem newChild_writes {s : State} (b : Bool) (allocated : s.cursor.toNat < s.alloc.toNat) :
    newChild s b = { s with
      nodes := (newChild s b).nodes, alloc := s.alloc + 1, cursor := s.alloc, depth := s.depth + 1 } ∧
      nodeAt (newChild s b) s.alloc.toNat = fresh s.cursor ∧
      nodeAt (newChild s b) s.cursor.toNat = withEdge (here s) b s.alloc ∧
      ∀ k, k ≠ s.cursor.toNat → k ≠ s.alloc.toNat → nodeAt (newChild s b) k = nodeAt s k :=
  ⟨rfl, nodeAt_newChild_alloc allocated, nodeAt_newChild_cursor, fun _ notCursor notNew =>
    (nodeAt_setNode_other _ _ _ _ notCursor).trans (nodeAt_setNode_other _ _ _ _ notNew)⟩

/-- Settles O24: both steps are `newChild`, each on its own side. -/
theorem engineCreatesAChild : Obligations.EngineCreatesAChild := by
  intro s build next allocated choices
  obtain choice | choice := choices
  · obtain ⟨-, answer⟩ := step_of_choice build next choice
    rw [if_pos choice]
    exact ⟨newChild s false, answer, newChild_writes false allocated⟩
  · obtain ⟨-, answer⟩ := step_of_choice build next choice
    rw [if_neg (by simp [choice])]
    exact ⟨newChild s true, answer, newChild_writes true allocated⟩

/-- Settles O25: the tests of the two steps give the child. -/
theorem engineDescends : Obligations.EngineDescends := by
  intro s build next
  constructor <;> intro choice
  · obtain ⟨⟨-, l, left, -⟩, answer⟩ := step_of_choice build next choice
    rw [engineEffect, stepDlOld_of_left left] at answer
    exact ⟨l, left, answer⟩
  · obtain ⟨⟨-, l, r, -, -, right, -⟩, answer⟩ := step_of_choice build next choice
    rw [engineEffect, stepDrOld_of_right right] at answer
    exact ⟨r, right, answer⟩

/-- Settles O26: the tests of the step give the parent. -/
theorem engineAscends : Obligations.EngineAscends := by
  intro s build next choice
  obtain ⟨⟨-, l, r, p, -, -, -, -, up⟩, answer⟩ := step_of_choice build next choice
  rw [engineEffect, stepAscend_of_parent up] at answer
  refine ⟨ascendTo s p, p, answer, up, rfl, ?_, fun k other => ?_⟩
  · rw [nodeAt_ascendTo, if_pos rfl]
    rfl
  · rw [nodeAt_ascendTo, if_neg other]

end Sys2Proof.Machine
end

section
/-! SUPPORT. Builds under the invariant: what keeps the engine's arithmetic in its registers (R97(h)), how a build ends (R85, R95,
R138), and the build of a table with no code (R121). -/

namespace Sys2Proof.Machine

/-! ## The engine's arithmetic -/

/-- Where a child is made the node memory has room for one node more and the tree for one level (R16, R53, R97). -/
theorem Building.room_for_child {s : State} (h : Building s) (above : Above s) (b : Bool) (free : edge (here s) b = none)
    (leftFirst : b = true → (here s).left ≠ none) : s.alloc.toNat + 1 ≤ 131071 ∧ s.depth.toNat + 1 ≤ 16 := by
  obtain ⟨⟨more, -⟩, shallow⟩ := above
  have grow := h.canGrow more shallow free leftFirst
  exact ⟨grow.alloc_lt, grow.room⟩

/-- Above the bucket's depth there is one level more to go down (R97(a)). -/
theorem Walk.room_below {s : State} (walk : Walk s) (above : Above s) : s.depth.toNat + 1 ≤ 16 := by
  obtain ⟨⟨more, -⟩, shallow⟩ := above
  obtain ⟨-, le, small, -⟩ := walk.depth_lt more shallow
  omega

/-- Settles O49, choice by choice: the tests of R84 that lead to it, and the invariant. -/
theorem engineArithmeticNeverWraps : Obligations.EngineArithmeticNeverWraps := by
  intro s inv build
  have building := Building.of_inv inv build
  have walk := building.walk
  refine ⟨fun choice => ?_, fun choice => ?_, fun choices => ?_, fun choices => ?_, fun choice => ?_⟩
  · obtain ⟨more, -⟩ := tests_of_choice choice
    exact (walk.bucket_succ more).1
  · obtain ⟨⟨-, wanted⟩, deep, -⟩ := tests_of_choice choice
    obtain ⟨-, bare⟩ := building.cursor_leaf deep
    have few := building.tree.usedCount_lt walk.allocated bare walk.unused
    have placed := walk.placed
    have pass := walk.pass
    have positive : (cntAt s s.i.toNat).toNat ≠ 0 := fun zero => wanted (BitVec.eq_of_toNat_eq zero)
    omega
  · obtain choice | choice := choices
    · obtain ⟨above, left⟩ := tests_of_choice choice
      exact building.room_for_child above false left (by simp)
    · obtain ⟨above, l, left, -, right⟩ := tests_of_choice choice
      exact building.room_for_child above true right (by simp [left])
  · exact walk.room_below (choices.elim (fun choice => (tests_of_choice choice).1) fun choice => (tests_of_choice choice).1)
  · obtain ⟨-, l, r, p, -, -, -, -, up⟩ := tests_of_choice choice
    obtain ⟨e, deep, -⟩ := depthOf_parent up walk.depth
    omega

/-! ## How a build ends -/

/-- A build of `s` has ended in success at `t`: BUILT, no error, the tree kept, the cursor at the root (R85). -/
abbrev Succeeded (s t : State) : Prop :=
  t.built = true ∧ t.berr = none ∧ t.nodes = s.nodes ∧ t.alloc = s.alloc ∧ t.cursor = 0

/-- A build has ended in one of the walk's two errors, with the bare root (R95). -/
abbrev Failed (t : State) : Prop :=
  t.built = false ∧ (t.berr = some .tooFewValues ∨ t.berr = some .infeasible) ∧ t.nodes = [(0, rootClear)] ∧ t.alloc = 1 ∧
    t.cursor = 0 ∧ t.derr = false ∧ t.result = noSymbol

/-- The engine ends a build by FINISH or by a failing step. -/
theorem Building.ends {s : State} (h : Building s) (idle : (engineTurn s).phase = .idle) :
    Succeeded s (engineTurn s) ∨ Failed (engineTurn s) := by
  have walk := h.walk
  rw [engineTurn_build s h.phase] at idle ⊢
  by_cases last : engineChoice s = .finish ∨ engineChoice s = .failTooFewValues ∨ engineChoice s = .failInfeasible
  · obtain choice | choice | choice := last <;> rw [choice]
    · obtain ⟨-, cursor⟩ := walk.atRoot (.inl (tests_of_choice choice))
      exact .inl ⟨rfl, walk.berr, rfl, rfl, cursor⟩
    · exact .inr ⟨walk.built, .inl rfl, rfl, rfl, rfl, walk.derr, walk.result⟩
    · exact .inr ⟨walk.built, .inr rfl, rfl, rfl, rfl, walk.derr, walk.result⟩
  · rw [engineEffect_phase, if_neg last] at idle
    exact absurd (idle.symm.trans h.phase) (by decide)

/-- Settles O46: of the events only a reset and the engine's turn end a build. -/
theorem howABuildEnds : Obligations.HowABuildEnds := by
  intro s t inv build answer idle
  have running : s.phase ≠ .idle := by simp [build]
  obtain ⟨-, rfl⟩ | ⟨ts, -, rfl⟩ | ⟨ts, next, -⟩ | ⟨off, ts, -, -, -, rfl⟩ |
    ⟨off, v, ts, -, -, -, ⟨i, -, run⟩ | ⟨-, rfl⟩⟩ := step_cases answer
  · exact .inr ((Building.of_inv inv build).ends idle)
  · exact .inr ((Building.of_inv (inv_turns inv ts) build).ends idle)
  · exact .inl ⟨ts, next⟩
  · exact absurd idle running
  · rw [exec_busy i { s with turns := ts } build] at run
    cases run
    exact absurd idle running
  · obtain ⟨-, write⟩ | ⟨phase, -⟩ := hostWrite_cases off v { s with turns := ts }
    · rw [write] at idle
      exact absurd idle running
    · exact absurd phase running

/-! ## A table with no code -/

/-- The walk of a table with no code when it has come to bucket `k`. -/
def atBucket (s : State) (k : Nat) : State := { walkInit (buildClear s) with i := BitVec.ofNat 5 k }

theorem stepSkip_atBucket (s : State) (k : Nat) : stepSkip (atBucket s k) = atBucket s (k + 1) := by
  rw [stepSkip, atBucket, atBucket, BitVec.ofNat_add]
  rfl

section

variable {s : State} (fits : s.nlen.toNat ≤ 16)
include fits

theorem atBucket_i {k : Nat} (le : k ≤ s.nlen.toNat) : (atBucket s k).i.toNat = k := by
  rw [atBucket, BitVec.toNat_ofNat, Nat.mod_eq_of_lt (by omega)]

/-- After the last bucket the build is finished (R85). -/
theorem engineTurn_atBucket_last : engineTurn (atBucket s s.nlen.toNat) = stepFinish (atBucket s s.nlen.toNat) := by
  rw [engineTurn_build _ rfl, engineChoice_finish (atBucket_i fits (le_refl _)), engineEffect]

variable (noCode : ∀ k : Fin 16, k.val < s.nlen.toNat → s.len[k] = 0)
include noCode

/-- Every bucket is skipped (R86). -/
theorem engineTurn_atBucket {k : Nat} (lt : k < s.nlen.toNat) : engineTurn (atBucket s k) = atBucket s (k + 1) := by
  have index := atBucket_i fits lt.le
  have bucket : k < 16 := lt.trans_le fits
  have empty : cntAt (atBucket s k) (atBucket s k).i.toNat = 0 := by
    rw [index, cntAt_of_lt _ k bucket]
    exact (loadedCounts_getElem s.nlen s.len k bucket).trans (by rw [if_pos lt]; exact noCode ⟨k, bucket⟩ lt)
  have more : (atBucket s k).i.toNat ≠ (atBucket s k).nlen.toNat := index.symm ▸ Nat.ne_of_lt lt
  rw [engineTurn_build _ rfl, engineChoice_skip more empty, engineEffect, stepSkip_atBucket]

theorem afterBuild_of_le {n : Nat} (le : n ≤ s.nlen.toNat) : afterBuild s n = atBucket s n := by
  rw [afterBuild, buildStart_fits fits]
  induction n with
  | zero => rfl
  | succ n ih =>
    rw [engineTurns_add n 1, ih (Nat.le_of_succ_le le)]
    exact engineTurn_atBucket fits noCode le

theorem afterBuild_of_lt {n : Nat} (lt : s.nlen.toNat < n) : afterBuild s n = stepFinish (atBucket s s.nlen.toNat) := by
  obtain ⟨m, rfl⟩ := Nat.exists_eq_add_of_lt lt
  have skips : engineTurns s.nlen.toNat (buildStart s) = _ := afterBuild_of_le fits noCode (le_refl _)
  rw [afterBuild, Nat.add_assoc, engineTurns_add, skips, Nat.add_comm m, engineTurns_add 1 m, engineTurns, engineTurns,
    engineTurn_atBucket_last fits, engineTurns_idle m _ rfl]

end

/-- Settles O57: a SKIP for each bucket, then FINISH, and no step touches a node. -/
theorem buildOfNoCodesLeavesTheBareRoot : Obligations.BuildOfNoCodesLeavesTheBareRoot := by
  intro s _ fits noCode
  refine ⟨fun n => ?_, fun n le => ?_, fun n lt => ?_⟩
  · obtain le | lt := le_or_gt n s.nlen.toNat
    · rw [afterBuild_of_le fits noCode le]
      exact ⟨rfl, rfl, rfl, rfl⟩
    · rw [afterBuild_of_lt fits noCode lt]
      exact ⟨rfl, rfl, rfl, rfl⟩
  · rw [afterBuild_of_le fits noCode le]
    exact ⟨rfl, rfl⟩
  · rw [afterBuild_of_lt fits noCode lt]
    exact ⟨rfl, rfl⟩

end Sys2Proof.Machine
end

section
/-! SUPPORT. A BUILD and the past (R100): the walk reads VAL entry by entry, and it starts from the tables alone. -/

namespace Sys2Proof.Machine

/-! ## The engine and VAL -/

/-- The engine's step is the same over any VAL memory whose entries read alike. -/
theorem engineEffect_with_vals (e : EngineStep) {s : State} {v : List Host.Cell}
    (alike : ∀ k, valAt { s with vals := v } k = valAt s k) :
    engineEffect e { s with vals := v } = { engineEffect e s with vals := v } := by
  have same : here { s with vals := v } = here s := rfl
  cases e
  case place => exact stepPlace_with_vals (alike _)
  case dlOld => simp only [engineEffect, stepDlOld, same]; split <;> rfl
  case drOld => simp only [engineEffect, stepDrOld, same]; split <;> rfl
  case ascend => simp only [engineEffect, stepAscend, same]; split <;> rfl
  all_goals rfl

theorem engineTurn_with_vals {s : State} {v : List Host.Cell} (alike : ∀ k, valAt { s with vals := v } k = valAt s k) :
    engineTurn { s with vals := v } = { engineTurn s with vals := v } := by
  obtain idle | build := phase_cases s
  · rw [engineTurn_idle s idle, engineTurn_idle { s with vals := v } idle]
  · rw [engineTurn_build s build, engineTurn_build { s with vals := v } build]
    exact engineEffect_with_vals (engineChoice s) alike

theorem engineTurns_with_vals (n : Nat) {s : State} {v : List Host.Cell}
    (alike : ∀ k, valAt { s with vals := v } k = valAt s k) :
    engineTurns n { s with vals := v } = { engineTurns n s with vals := v } := by
  induction n generalizing s with
  | zero => rfl
  | succ n ih =>
    rw [engineTurns, engineTurns, engineTurn_with_vals alike]
    exact ih fun k => (alike k).trans (valAt_congr (sameTables_engineTurn s).vals.symm k)

/-! ## Two blocks with the same tables -/

/-- Two walks over equal NLEN, LEN and NVAL start alike but for VAL, whatever stood in the blocks before (R81, R83). -/
theorem blockOf_walkStart {s u : State} (nlen : s.nlen = u.nlen) (len : s.len = u.len) (nval : s.nval = u.nval) :
    blockOf (walkInit (buildClear u)) = { blockOf (walkInit (buildClear s)) with vals := u.vals } := by
  simp only [blockOf, walkInit, buildClear, discard, nlen, len, nval]

/-- Settles O51: too large a table leaves both blocks with the bare root; else the two walks are the same but for VAL, whose entries read
alike. -/
theorem rebuildForgetsThePast : Obligations.RebuildForgetsThePast := by
  intro s u _ _ nlen len nval alike n
  obtain ⟨large, start⟩ | ⟨fits, start⟩ := buildStart_cases s
  · rw [afterBuild, afterBuild, start, buildStart_large (nlen ▸ large), engineTurns_idle n _ rfl, engineTurns_idle n _ rfl]
    exact ⟨rfl, rfl, rfl, rfl, rfl, rfl, rfl, rfl⟩
  · have same : blockOf (afterBuild u n) = { blockOf (afterBuild s n) with vals := u.vals } := by
      rw [afterBuild, afterBuild, start, buildStart_fits (nlen ▸ fits), blockOf_engineTurns, blockOf_engineTurns,
        blockOf_walkStart nlen len nval]
      exact engineTurns_with_vals n fun k => (alike k).symm
    exact ⟨(congrArg State.nodes same).symm, (congrArg State.alloc same).symm, (congrArg State.cursor same).symm,
      (congrArg State.phase same).symm, (congrArg State.derr same).symm, (congrArg State.berr same).symm,
      (congrArg State.built same).symm, (congrArg State.result same).symm⟩

end Sys2Proof.Machine
end

section
/-! SUPPORT. Every build ends (R98): within a pass each node is explored at most once, and each of the engine's turns takes one from a
bound on those that are left. -/

namespace Sys2Proof.Machine

/-! ## What a pass has explored -/

/-- The invariant of a pass: the node under the cursor is not explored yet, and below an explored node there is nothing to enter. -/
structure Exploring (s : State) : Prop where
  walking : Walking s
  cursor : (here s).visited ≠ s.order
  closed : ∀ k b x, k < s.alloc.toNat → (nodeAt s k).visited = s.order → edge (nodeAt s k) b = some x → enterable s x = false

/-- 1 for a node explored in this pass, else 0. -/
def exploredAt (s : State) (k : Nat) : Nat := if (nodeAt s k).visited = s.order then 1 else 0

/-- The number of nodes explored in this pass. -/
def exploredCount (s : State) : Nat := overNodes s (exploredAt s)

/-- A bound on the turns the engine takes until the build ends: 262159 for each value that can still be placed, and, within the pass, one
for each bucket, two for each node not explored yet and one for each level below the cursor. -/
def stepsLeft (s : State) : Nat :=
  (65536 - s.vidx.toNat) * 262159 + (s.nlen.toNat - s.i.toNat) + 2 * (131071 - exploredCount s) + (16 - s.depth.toNat)

/-- There are no more explored nodes than the node memory has (R16). -/
theorem exploredCount_le (s : State) : exploredCount s ≤ 131071 := by
  have small := s.alloc.isLt
  have each : ∀ k ∈ Finset.range s.alloc.toNat, exploredAt s k ≤ 1 := fun k _ => by
    rw [exploredAt]
    split <;> decide
  have total := Finset.sum_le_card_nsmul _ _ _ each
  rw [Finset.card_range, smul_eq_mul, ← overNodes_eq_sum] at total
  rw [exploredCount]
  omega

/-- Within a pass it is enough that the bucket, the nodes to explore and the levels below the cursor leave less. -/
theorem stepsLeft_lt {s t : State} (vidx : t.vidx = s.vidx) (nlen : t.nlen = s.nlen)
    (less : (s.nlen.toNat - t.i.toNat) + 2 * (131071 - exploredCount t) + (16 - t.depth.toNat) <
      (s.nlen.toNat - s.i.toNat) + 2 * (131071 - exploredCount s) + (16 - s.depth.toNat)) : stepsLeft t < stepsLeft s := by
  rw [stepsLeft, stepsLeft, vidx, nlen]
  omega

theorem Walk.depth_le {s : State} (walk : Walk s) : s.depth.toNat ≤ 16 := by
  obtain ⟨small, -⟩ := climb_fuel walk.depth
  omega

theorem Walk.pass_ne_zero {s : State} (walk : Walk s) : s.order ≠ 0 := by
  intro zero
  have pass := walk.pass
  simp [zero] at pass

/-! ## One lemma for each step that goes on -/

/-- After PLACE the pass counter is ahead of every stamp (R97(f)). -/
theorem Walking.visited_ne_next_pass {s : State} (h : Walking s) (deep : s.depth.toNat = s.i.toNat + 1) {k : Nat}
    (allocated : k < s.alloc.toNat) : (nodeAt (stepPlace s) k).visited ≠ s.order + 1 := by
  intro visited
  have inside := h.vidx_lt deep
  have pass := h.walk.pass
  have stamp := (h.walk.node k allocated).stamp
  have next : (s.order + 1).toNat = (s.order.toNat + 1) % 2 ^ 17 := BitVec.toNat_add _ _
  rw [← visited_stepPlace, visited] at stamp
  omega

/-- ASCEND opens no node (R93). -/
theorem enterable_ascendTo {s : State} {p x : NodeIdx} (closed : enterable s x = false) : enterable (ascendTo s p) x = false := by
  rw [← Bool.not_eq_true, enterable_iff] at closed ⊢
  rintro ⟨unused, visited⟩
  rw [used_ascendTo] at unused
  rw [nodeAt_ascendTo] at visited
  split at visited
  · exact visited rfl
  · exact closed ⟨unused, visited⟩

/-- Making a child opens no older node (R89, R91). -/
theorem enterable_newChild {s : State} {b : Bool} {x : NodeIdx} (old : x.toNat < s.alloc.toNat) :
    enterable (newChild s b) x = enterable s x := by
  obtain ⟨-, used, visited⟩ := nodeAt_newChild_old (b := b) old
  rw [enterable, enterable, used, visited]
  rfl

namespace Exploring

variable {s : State} (h : Exploring s)
include h

theorem skip (more : s.i.toNat ≠ s.nlen.toNat) (empty : cntAt s s.i.toNat = 0) :
    Exploring (stepSkip s) ∧ stepsLeft (stepSkip s) < stepsLeft s := by
  have walk := h.walking.walk
  have bucket := walk.bucket
  obtain ⟨-, next⟩ := walk.bucket_succ more
  refine ⟨⟨h.walking.skip more empty, h.cursor, h.closed⟩, stepsLeft_lt rfl rfl ?_⟩
  have i : (stepSkip s).i.toNat = s.i.toNat + 1 := next
  have explored : exploredCount (stepSkip s) = exploredCount s := rfl
  have depth : (stepSkip s).depth = s.depth := rfl
  rw [i, explored, depth]
  omega

theorem descend {b : Bool} {k : NodeIdx} (above : Above s) (down : edge (here s) b = some k) (enter : enterable s k = true) :
    Exploring (descend s k) ∧ stepsLeft (descend s k) < stepsLeft s := by
  obtain ⟨⟨more, wanted⟩, shallow⟩ := above
  obtain ⟨unused, visited⟩ := (enterable_iff s k).1 enter
  obtain ⟨-, le, small, depth⟩ := h.walking.walk.depth_lt more shallow
  refine ⟨⟨h.walking.descend more wanted shallow down unused, visited, h.closed⟩, stepsLeft_lt rfl rfl ?_⟩
  have explored : exploredCount (Machine.descend s k) = exploredCount s := rfl
  rw [descend_i, descend_depth, depth, explored]
  omega

/-- The new node is not explored. -/
theorem exploredCount_newChild {b : Bool} {d : Nat} (grow : CanGrow s b d) : exploredCount (newChild s b) = exploredCount s := by
  have old : ∀ k, k < s.alloc.toNat → exploredAt (Machine.newChild s b) k = exploredAt s k := by
    intro k hk
    obtain ⟨-, -, visited⟩ := nodeAt_newChild_old (b := b) hk
    rw [exploredAt, visited]
    rfl
  have new : exploredAt (Machine.newChild s b) s.alloc.toNat = 0 := by
    rw [exploredAt, nodeAt_newChild_alloc grow.allocated]
    exact if_neg h.walking.walk.pass_ne_zero.symm
  have sum := grow.overNodes_newChild fun k hk _ => old k hk
  rw [old _ grow.allocated, new] at sum
  exact Nat.add_right_cancel sum

theorem newChild {b : Bool} (above : Above s) (free : edge (here s) b = none) (leftFirst : b = true → (here s).left ≠ none) :
    Exploring (newChild s b) ∧ stepsLeft (newChild s b) < stepsLeft s := by
  obtain ⟨⟨more, wanted⟩, shallow⟩ := above
  obtain ⟨-, le, small, depth⟩ := h.walking.walk.depth_lt more shallow
  have grow := h.walking.canGrow more shallow free leftFirst
  have new := nodeAt_newChild_alloc (b := b) grow.allocated
  have pass := h.walking.walk.pass_ne_zero
  refine ⟨⟨h.walking.newChild more wanted shallow free leftFirst, ?_, fun k c x hk visited down => ?_⟩, stepsLeft_lt rfl rfl ?_⟩
  · exact fun visited => pass (visited.symm.trans (congrArg Node.visited new))
  · obtain old | rfl := grow.lt_cases hk
    · obtain ⟨-, -, same⟩ := nodeAt_newChild_old (b := b) old
      have before : (nodeAt s k).visited = s.order := same.symm.trans visited
      have away : k ≠ s.cursor.toNat := by
        rintro rfl
        exact h.cursor before
      rw [nodeAt_newChild_other old away] at down
      obtain ⟨-, inside, -⟩ := (grow.tree.linked k old).child c x down
      rw [enterable_newChild inside]
      exact h.closed k c x old before down
    · rw [new, edge_fresh] at down
      cases down
  · have deeper : (Machine.newChild s b).depth.toNat = s.depth.toNat + 1 := depth
    have bucket : (Machine.newChild s b).i = s.i := rfl
    rw [h.exploredCount_newChild grow, deeper, bucket]
    omega

/-- ASCEND explores the node it leaves. -/
theorem exploredCount_ascendTo (p : NodeIdx) : exploredCount (ascendTo s p) = exploredCount s + 1 := by
  have others : ∀ k, k < s.alloc.toNat → k ≠ s.cursor.toNat → exploredAt (ascendTo s p) k = exploredAt s k := by
    intro k _ other
    rw [exploredAt, nodeAt_ascendTo, if_neg other]
    rfl
  have after : exploredAt (ascendTo s p) s.cursor.toNat = 1 := by
    rw [exploredAt, nodeAt_ascendTo, if_pos rfl]
    exact if_pos rfl
  have before : exploredAt s s.cursor.toNat = 0 := if_neg h.cursor
  have sum := overNodes_change (t := ascendTo s p) rfl h.walking.walk.allocated others
  rwa [before, after] at sum

theorem ascend {l r p : NodeIdx} (above : Above s) (left : (here s).left = some l) (closedLeft : enterable s l = false)
    (right : (here s).right = some r) (closedRight : enterable s r = false) (up : (here s).parent = some p) :
    Exploring (ascendTo s p) ∧ stepsLeft (ascendTo s p) < stepsLeft s := by
  obtain ⟨⟨more, wanted⟩, -⟩ := above
  have tree := h.walking.tree
  have walk := h.walking.walk
  have allocated := walk.allocated
  have links := sameLinks_ascendTo s p
  obtain ⟨q, hq, inside, b, down⟩ := (tree.linked _ allocated).parent (tree.ne_zero_of_parent up)
  obtain rfl : q = p := Option.some.inj (hq.symm.trans up)
  rw [BitVec.ofNat_toNat, BitVec.setWidth_eq] at down
  refine ⟨⟨h.walking.ascend more wanted (childless_false_of_edge (b := false) left) up, ?_, fun k c x hk visited edge => ?_⟩,
    stepsLeft_lt rfl rfl ?_⟩
  · obtain ⟨later, -, -⟩ := (tree.linked _ inside).child b _ down
    change (nodeAt (ascendTo s q) q.toNat).visited ≠ s.order
    rw [nodeAt_ascendTo, if_neg (Nat.ne_of_lt later)]
    intro visited
    exact absurd ((enterable_iff s s.cursor).2 ⟨walk.unused, h.cursor⟩) (by simp [h.closed _ b _ inside visited down])
  · refine enterable_ascendTo ?_
    rw [links.edge] at edge
    rw [nodeAt_ascendTo] at visited
    split at visited
    · next at_cursor =>
      subst at_cursor
      cases c
      · cases left.symm.trans edge
        exact closedLeft
      · cases right.symm.trans edge
        exact closedRight
    · exact h.closed k c x hk visited edge
  · have explored := h.exploredCount_ascendTo q
    have most := exploredCount_le (ascendTo s q)
    have shallow := walk.depth_le
    obtain ⟨e, deep, -⟩ := depthOf_parent up walk.depth
    have higher : (ascendTo s q).depth.toNat = e := by
      change (s.depth - 1).toNat = e
      rw [BitVec.toNat_sub_of_le (by rw [BitVec.le_def, deep]; exact Nat.succ_pos e), deep]
      rfl
    have bucket : (ascendTo s q).i = s.i := rfl
    rw [higher, bucket]
    omega

/-- PLACE begins a new pass, with nothing explored, and there is one value less to place. -/
theorem place (wanted : Wanted s) (deep : s.depth.toNat = s.i.toNat + 1) :
    Exploring (stepPlace s) ∧ stepsLeft (stepPlace s) < stepsLeft s := by
  obtain ⟨-, wanted⟩ := wanted
  refine ⟨⟨h.walking.place wanted deep, h.walking.visited_ne_next_pass deep h.walking.tree.alloc_pos,
    fun k b x hk visited => absurd visited (h.walking.visited_ne_next_pass deep hk)⟩, ?_⟩
  have inside := h.walking.vidx_lt deep
  have next : (stepPlace s).vidx.toNat = (s.vidx.toNat + 1) % 2 ^ 17 := BitVec.toNat_add _ _
  rw [stepsLeft, stepsLeft, stepPlace_nlen, stepPlace_i]
  omega

end Exploring

/-! ## The end -/

/-- A turn of the engine ends the build or takes one from the turns that are left. -/
theorem Exploring.engineTurn {s : State} (h : Exploring s) :
    (engineTurn s).phase = .idle ∨ (Exploring (engineTurn s) ∧ stepsLeft (engineTurn s) < stepsLeft s) := by
  rw [engineTurn_build s h.walking.phase]
  have tests := testsLeadTo_engineChoice s
  cases choice : engineChoice s <;> rw [choice] at tests <;> rw [engineEffect]
  case finish => exact .inl rfl
  case skip =>
    obtain ⟨more, empty⟩ := tests
    exact .inr (h.skip more empty)
  case place =>
    obtain ⟨wanted, deep, -⟩ := tests
    exact .inr (h.place wanted deep)
  case failTooFewValues => exact .inl rfl
  case dlNew =>
    obtain ⟨above, left⟩ := tests
    exact .inr (h.newChild (b := false) above left (by simp))
  case dlOld =>
    obtain ⟨above, l, left, enter⟩ := tests
    rw [stepDlOld_of_left left]
    exact .inr (h.descend (b := false) above left enter)
  case drNew =>
    obtain ⟨above, l, left, -, right⟩ := tests
    exact .inr (h.newChild (b := true) above right (by simp [left]))
  case drOld =>
    obtain ⟨above, l, r, -, -, right, enter⟩ := tests
    rw [stepDrOld_of_right right]
    exact .inr (h.descend (b := true) above right enter)
  case ascend =>
    obtain ⟨above, l, r, p, left, closedLeft, right, closedRight, up⟩ := tests
    rw [stepAscend_of_parent up]
    exact .inr (h.ascend above left closedLeft right closedRight up)
  case failInfeasible => exact .inl rfl

/-- A build is over once its turns are used up. -/
theorem Exploring.ends {m : Nat} {s : State} (h : Exploring s) (bound : stepsLeft s < m) :
    ∃ n, n ≤ m ∧ (engineTurns n s).phase = .idle := by
  induction m generalizing s with
  | zero => exact absurd bound (Nat.not_lt_zero _)
  | succ m ih =>
    obtain ended | ⟨goesOn, less⟩ := h.engineTurn
    · exact ⟨1, by omega, ended⟩
    · obtain ⟨n, le, idle⟩ := ih goesOn (by omega)
      exact ⟨n + 1, Nat.succ_le_succ le, idle⟩

/-- BUILD start begins a pass with nothing explored (R83). -/
theorem exploring_start {s : State} (fits : s.nlen.toNat ≤ 16) : Exploring (walkInit (buildClear s)) := by
  have unexplored : ∀ k, k < (walkInit (buildClear s)).alloc.toNat →
      (nodeAt (walkInit (buildClear s)) k).visited ≠ (walkInit (buildClear s)).order := by
    intro k hk
    obtain rfl : k = 0 := Nat.lt_one_iff.1 hk
    intro visited
    have stamp : (0 : Pass) = 1 := visited
    exact absurd stamp (by decide)
  exact ⟨walking_start fits, unexplored 0 Nat.one_pos, fun k b x hk visited => absurd visited (unexplored k hk)⟩

/-- Settles O53: a table that is too large ends the BUILD at once, and a walk ends when its turns are used up. -/
theorem everyBuildEnds : Obligations.EveryBuildEnds := by
  intro s _
  obtain ⟨-, start⟩ | ⟨fits, start⟩ := buildStart_cases s
  · exact ⟨0, by decide, congrArg State.phase start⟩
  · have bound : stepsLeft (walkInit (buildClear s)) < 2 ^ 35 - 1 := by
      rw [stepsLeft, walkInit_nlen, buildClear_nlen]
      omega
    obtain ⟨n, le, idle⟩ := (exploring_start fits).ends bound
    exact ⟨n, by omega, by rwa [afterBuild, start]⟩

end Sys2Proof.Machine
end

section
/-! SUPPORT. The outcome of a BUILD (R99): the walk meets the first code that does not fit, the first code without a value, or the end
of the table, whichever comes first. -/

namespace Sys2Proof.Machine

/-! ## The outcome of a table that is not too large -/

/-- Codes that fit are passed over. -/
theorem firstMisfit_append {placed j : Nat} {ls : List Nat} (fits : placed + codeSum ls ≤ 65536) (rest : List Nat) :
    firstMisfit placed j (ls ++ rest) = firstMisfit (placed + codeSum ls) (j + ls.length) rest := by
  induction ls generalizing placed j with
  | nil => rfl
  | cons l ls ih =>
    rw [codeSum_cons, ← Nat.add_assoc] at fits ⊢
    rw [List.cons_append, firstMisfit, if_neg (by omega), ih fits, List.length_cons, Nat.add_comm ls.length, Nat.add_assoc j]

theorem firstMisfit_eq_none {placed j : Nat} {ls : List Nat} (fits : placed + codeSum ls ≤ 65536) :
    firstMisfit placed j ls = none := by
  rw [← List.append_nil ls, firstMisfit_append fits, firstMisfit]

/-- The search goes on from its starting index. -/
theorem le_of_firstMisfit {placed j f : Nat} {ls : List Nat} (misfit : firstMisfit placed j ls = some f) : j ≤ f := by
  induction ls generalizing placed j with
  | nil => cases misfit
  | cons l ls ih =>
    rw [firstMisfit] at misfit
    split at misfit
    · exact (Option.some.inj misfit).le
    · exact Nat.le_of_succ_le (ih misfit)

/-- R99 for a table of at most 16 buckets: its length sequence and the number of values supplied decide. -/
def walkOutcome (table : List Nat) (supply : Nat) : Option BuildError :=
  if (firstMisfit 0 0 table).any fun f => decide (f ≤ supply) then some .infeasible
  else if supply < table.length then some .tooFewValues
  else none

theorem buildOutcome_of_fits {s : State} (fits : s.nlen.toNat ≤ 16) :
    buildOutcome s = walkOutcome (lengthSequence s) s.nval.toNat := if_neg (Nat.not_lt.2 fits)

section

variable {ls rest : List Nat} {l supply : Nat}

theorem walkOutcome_success (fits : codeSum ls ≤ 65536) (enough : ls.length ≤ supply) : walkOutcome ls supply = none := by
  rw [walkOutcome, firstMisfit_eq_none (by omega)]
  exact if_neg (Nat.not_lt.2 enough)

/-- The code after the last value supplied fits, so no code up to it is a misfit. -/
theorem walkOutcome_tooFewValues (fits : codeSum (ls ++ [l]) ≤ 65536) (supplied : ls.length = supply) :
    walkOutcome (ls ++ l :: rest) supply = some .tooFewValues := by
  have later : ∀ f, firstMisfit 0 0 (ls ++ l :: rest) = some f → ¬f ≤ supply := by
    intro f misfit
    rw [List.append_cons, firstMisfit_append (by omega), List.length_append, List.length_singleton] at misfit
    have := le_of_firstMisfit misfit
    omega
  have none_early : ¬((firstMisfit 0 0 (ls ++ l :: rest)).any fun f => decide (f ≤ supply)) = true := by
    simpa [Option.any_eq_true] using later
  rw [walkOutcome, if_neg none_early, if_pos (by simp [supplied])]

/-- The code after those that fit is the first misfit. -/
theorem walkOutcome_infeasible (fits : codeSum ls ≤ 65536) (full : 65536 < codeSum ls + 2 ^ (16 - l)) (supplied : ls.length ≤ supply) :
    walkOutcome (ls ++ l :: rest) supply = some .infeasible := by
  have misfit : firstMisfit 0 0 (ls ++ l :: rest) = some ls.length := by
    rw [firstMisfit_append (by omega), firstMisfit, if_pos (by omega), Nat.zero_add]
  rw [walkOutcome, misfit]
  exact if_pos (decide_eq_true supplied)

end

/-! ## What the walk finds -/

/-- The code words of a node are among the 2^16. -/
theorem Numbered.endWord_le {s : State} {code : Nat → Nat × Nat} (numbered : Numbered s code) (tree : CodeTree s) {k : Nat}
    (allocated : k < s.alloc.toNat) : endWord (code k) ≤ 65536 := by
  generalize depth : (code k).1 = d
  induction d generalizing k with
  | zero =>
    have root : k = 0 := by
      by_contra ne
      obtain ⟨p, b, -, -, -, extended⟩ := numbered.from_parent tree allocated ne
      simp [extended, extendCode] at depth
    rw [root, numbered.root]
    decide
  | succ d ih =>
    have ne : k ≠ 0 := by
      intro root
      rw [root, numbered.root] at depth
      cases depth
    obtain ⟨p, b, inside, -, down, extended⟩ := numbered.from_parent tree allocated ne
    rw [extended] at depth ⊢
    exact (endWord_extendCode_le (numbered.short tree inside down) b).trans (ih inside (Nat.succ.inj depth))

namespace Progress

variable {table ls : List Nat} {s : State} {code : Nat → Nat × Nat} (h : Progress table s code ls)
include h

/-- The next code of the table is one of bucket `i`. -/
theorem table_eq (wanted : Wanted s) : table = ls ++ (s.i.toNat + 1) :: pendingLengths (stepPlace s) := by
  obtain ⟨more, wanted⟩ := wanted
  obtain ⟨lt, small⟩ := h.bucket more
  rw [← pendingLengths_stepPlace lt small wanted, h.rest]

/-- A node at the bucket's depth is a place for the next code, which therefore fits (R99). -/
theorem next_fits (deep : s.depth.toNat = s.i.toNat + 1) : codeSum (ls ++ [s.i.toNat + 1]) ≤ 65536 := by
  obtain ⟨-, bare⟩ := h.walking.cursor_leaf deep
  have walk := h.walking.walk
  have numbered := h.filled.numbered
  obtain ⟨first, -⟩ := h.filled.tip _ walk.allocated bare walk.unused
  have length : (code s.cursor.toNat).1 = s.i.toNat + 1 :=
    (Option.some.inj ((numbered.depth _ walk.allocated).symm.trans walk.depth)).trans deep
  have inside := numbered.endWord_le h.walking.tree walk.allocated
  rwa [endWord, first, length, ← codeSum_append] at inside

/-- When the walk is stuck at the root all code words are filled (R94). -/
theorem full {r : NodeIdx} (right : (here s).right = some r) (closed : enterable s r = false) (root : (here s).parent = none) :
    65536 ≤ codeSum ls := by
  have allocated := h.walking.walk.allocated
  have tree := h.walking.tree
  have numbered := h.filled.numbered
  have at_root : s.cursor.toNat = 0 := by
    by_contra ne
    obtain ⟨p, up, -⟩ := (tree.linked _ allocated).parent ne
    cases root.symm.trans up
  have down : edge (nodeAt s s.cursor.toNat) true = some r := right
  obtain ⟨-, inside, -⟩ := (tree.linked _ allocated).child true r down
  have filled := h.filled.endWord_le_of_not_enterable inside closed
  rw [numbered.child _ true r allocated down, endWord_extendCode (numbered.short tree allocated down), if_pos rfl, at_root,
    numbered.root] at filled
  exact filled

end Progress

/-! ## The outcome of the walk -/

/-- The values for the codes `ls` placed so far were supplied, and the codes fit. -/
structure Supplied (supply : Nat) (s : State) (ls : List Nat) : Prop where
  nval : s.nval.toNat = supply
  enough : ls.length ≤ supply
  fits : codeSum ls ≤ 65536

/-- A build that is under way with all placed codes supplied, or that has ended with the outcome of R99. -/
def ToOutcome (table : List Nat) (supply : Nat) (s : State) : Prop :=
  (s.phase = .build ∧ ∃ code ls, Progress table s code ls ∧ Supplied supply s ls) ∨
    (s.phase = .idle ∧ s.berr = walkOutcome table supply ∧ (s.built = true ↔ walkOutcome table supply = none))

namespace Progress

variable {table ls : List Nat} {supply : Nat} {s : State} {code : Nat → Nat × Nat} (h : Progress table s code ls)
include h

theorem toOutcome (supplied : Supplied supply s ls) : ToOutcome table supply s :=
  .inl ⟨h.walking.phase, code, ls, h, supplied⟩

/-- FINISH with every code placed is the success of R99. -/
theorem toOutcome_finish (supplied : Supplied supply s ls) (done : s.i.toNat = s.nlen.toNat) :
    ToOutcome table supply (stepFinish s) := by
  have rest := h.rest
  rw [pendingLengths_done done, List.append_nil] at rest
  have success := walkOutcome_success supplied.fits supplied.enough
  rw [rest] at success
  exact .inr ⟨rfl, h.walking.walk.berr.trans success.symm, by simp [success, stepFinish]⟩

/-- A failing step with the error of R99. -/
theorem toOutcome_fail {e : BuildError} (outcome : walkOutcome table supply = some e) :
    ToOutcome table supply (raise (.build e) s) := by
  obtain ⟨berr, phase, -, built, -⟩ := raise_build e s
  exact .inr ⟨phase, berr.trans outcome.symm, by simp [built, h.walking.walk.built, outcome]⟩

/-- PLACE takes a value that is supplied for a code that fits. -/
theorem supplied_place (supplied : Supplied supply s ls) (deep : s.depth.toNat = s.i.toNat + 1)
    (supply_left : s.vidx.toNat < s.nval.toNat) : Supplied supply (stepPlace s) (ls ++ [s.i.toNat + 1]) where
  nval := supplied.nval
  enough := by
    have count := h.count
    have nval := supplied.nval
    rw [List.length_append, List.length_singleton]
    omega
  fits := h.next_fits deep

/-- Whichever test of the dispatch table holds, the step it names goes on with the build or ends it with the outcome of R99. -/
theorem toOutcome_engineEffect (supplied : Supplied supply s ls) :
    ToOutcome table supply (Machine.engineEffect (engineChoice s) s) := by
  have kept : ∀ {t : State}, t.nval = s.nval → Supplied supply t ls :=
    fun nval => ⟨(congrArg _ nval).trans supplied.nval, supplied.enough, supplied.fits⟩
  have tests := testsLeadTo_engineChoice s
  cases choice : engineChoice s <;> rw [choice] at tests <;> rw [Machine.engineEffect]
  case finish => exact h.toOutcome_finish supplied tests
  case skip =>
    obtain ⟨more, empty⟩ := tests
    exact (h.skip more empty).toOutcome (kept rfl)
  case place =>
    obtain ⟨⟨more, wanted⟩, deep, supply_left⟩ := tests
    exact (h.place more wanted deep).toOutcome (h.supplied_place supplied deep supply_left)
  case failTooFewValues =>
    obtain ⟨wanted, deep, short⟩ := tests
    refine h.toOutcome_fail ?_
    rw [h.table_eq wanted]
    exact walkOutcome_tooFewValues (h.next_fits deep) (le_antisymm supplied.enough (by rw [h.count, ← supplied.nval]; exact short))
  case dlNew =>
    obtain ⟨⟨⟨more, wanted⟩, above⟩, left⟩ := tests
    exact (h.leftChild more wanted above left).toOutcome (kept rfl)
  case dlOld =>
    obtain ⟨⟨⟨more, wanted⟩, above⟩, l, left, enter⟩ := tests
    rw [stepDlOld_of_left left]
    exact (h.descend (b := false) more wanted above left enter).toOutcome (kept rfl)
  case drNew =>
    obtain ⟨⟨⟨more, wanted⟩, above⟩, l, left, closed, right⟩ := tests
    exact (h.rightChild more wanted above left closed right).toOutcome (kept rfl)
  case drOld =>
    obtain ⟨⟨⟨more, wanted⟩, above⟩, l, r, -, -, right, enter⟩ := tests
    rw [stepDrOld_of_right right]
    exact (h.descend (b := true) more wanted above right enter).toOutcome (kept rfl)
  case ascend =>
    obtain ⟨⟨⟨more, wanted⟩, -⟩, l, r, p, -, -, right, closed, up⟩ := tests
    rw [stepAscend_of_parent up]
    exact (h.ascend more wanted right closed up).toOutcome (kept rfl)
  case failInfeasible =>
    obtain ⟨⟨wanted, -⟩, l, r, -, -, right, closed, root⟩ := tests
    refine h.toOutcome_fail ?_
    rw [h.table_eq wanted]
    have full := h.full right closed root
    have one := Nat.two_pow_pos (16 - (s.i.toNat + 1))
    exact walkOutcome_infeasible supplied.fits (by omega) supplied.enough

end Progress

theorem ToOutcome.engineTurns {table : List Nat} {supply : Nat} (n : Nat) {s : State} (h : ToOutcome table supply s) :
    ToOutcome table supply (engineTurns n s) := by
  induction n generalizing s with
  | zero => exact h
  | succ n ih =>
    refine ih ?_
    obtain ⟨build, code, ls, progress, supplied⟩ | ⟨idle, outcome⟩ := h
    · rw [engineTurn_build s build]
      exact progress.toOutcome_engineEffect supplied
    · rw [engineTurn_idle s idle]
      exact .inr ⟨idle, outcome⟩

/-- Settles O54: a table that is too large fails at once; else nothing is placed at the start, and the walk goes on to its outcome. -/
theorem buildOutcomeIsTheKraftCondition : Obligations.BuildOutcomeIsTheKraftCondition := by
  intro s n _ idle
  obtain ⟨large, start⟩ | ⟨fits, start⟩ := buildStart_cases s
  · rw [afterBuild, start, engineTurns_idle n _ rfl, buildOutcome, if_pos large]
    exact ⟨rfl, by simp [raise]⟩
  · have started : ToOutcome (lengthSequence s) s.nval.toNat (buildStart s) := by
      rw [start]
      exact (Progress.start fits).toOutcome ⟨rfl, Nat.zero_le _, Nat.zero_le _⟩
    rw [buildOutcome_of_fits fits]
    obtain ⟨build, -⟩ | ⟨-, outcome⟩ := started.engineTurns n
    · exact absurd (idle.symm.trans build) (by decide)
    · exact outcome

end Sys2Proof.Machine
end

section
/-! SUPPORT. The decoder's commands (R110 to R117): one equation for each case of MOVE, one for RESTART, and what both leave alone. -/

namespace Sys2Proof.Machine

/-! ## MOVE and RESTART on an idle block -/

theorem exec_move_idle {s : State} (idle : s.phase = .idle) (b : Bool) : exec (.move b) s = .next (moveStep b s) :=
  exec_idle (.move b) s idle

theorem exec_restart_idle {s : State} (idle : s.phase = .idle) : exec .restart s = .next (clearDecoder s) :=
  exec_idle .restart s idle

theorem moveStep_refused {s : State} (derr : s.derr = true) (b : Bool) : moveStep b s = moveRefused s := by
  rw [moveStep, if_pos derr]

section

variable {s : State} {b : Bool} (derr : s.derr = false)
include derr

theorem moveStep_absent (absent : edge (here s) b = none) : moveStep b s = raise .invalidCode s := by
  simp only [moveStep, derr, absent]
  rfl

variable {k : NodeIdx} (down : edge (here s) b = some k)
include down

theorem moveStep_leaf (leaf : childless (nodeAt s k.toNat) = true) : moveStep b s = moveEmit s k := by
  simp only [moveStep, derr, down, leaf]
  rfl

theorem moveStep_inner (inner : childless (nodeAt s k.toNat) = false) : moveStep b s = moveAdvance s k := by
  simp only [moveStep, derr, down, inner]
  rfl

end

/-! ## The four cases of MOVE, RESTART, and their frame -/

/-- Settles O28: the first case of MOVE. -/
theorem moveIsRefusedWhileDerr : Obligations.MoveIsRefusedWhileDerr := by
  intro b s idle derr
  rw [exec_move_idle idle, moveStep_refused derr]
  rfl

/-- Settles O29: the second case of MOVE; `edge` is the choice between the two pointers. -/
theorem moveOnAbsentEdgeRaisesInvalidCode : Obligations.MoveOnAbsentEdgeRaisesInvalidCode := by
  intro b s idle derr absent
  refine ⟨raise .invalidCode s, ?_, rfl⟩
  rw [exec_move_idle idle, moveStep_absent derr absent]

theorem childless_eq_false_iff (n : Node) : childless n = false ↔ n.left ≠ none ∨ n.right ≠ none := by
  rw [← Bool.not_eq_true, childless_iff, not_and_or]

/-- Settles O30: the fourth case of MOVE. -/
theorem moveAdvancesToAnInternalChild : Obligations.MoveAdvancesToAnInternalChild := by
  intro b s k idle derr down child
  rw [exec_move_idle idle, moveStep_inner derr down ((childless_eq_false_iff _).2 child)]
  rfl

/-- Settles O31: the third case of MOVE. -/
theorem moveEmitsTheLeafSymbol : Obligations.MoveEmitsTheLeafSymbol := by
  intro b s k idle derr down left right
  rw [exec_move_idle idle, moveStep_leaf derr down ((childless_iff _).2 ⟨left, right⟩)]
  rfl

/-- Settles O32: RESTART is `clearDecoder`. -/
theorem restartReturnsToTheRoot : Obligations.RestartReturnsToTheRoot := fun _ idle => exec_restart_idle idle

/-- Settles O33: while BUSY nothing happens; while IDLE by what MOVE and RESTART write. -/
theorem moveAndRestartFrame : Obligations.MoveAndRestartFrame := by
  intro s t i command answer
  obtain idle | build := phase_cases s
  · obtain rfl | ⟨b, rfl⟩ := command
    · obtain rfl := Host.Outcome.next.inj ((exec_restart_idle idle).symm.trans answer)
      exact ⟨fun _ => rfl, fun _ => rfl, rfl, fun _ => rfl⟩
    · obtain rfl := Host.Outcome.next.inj ((exec_move_idle idle b).symm.trans answer)
      have writes := moveStep_writes b s
      exact ⟨fun k => nodeAt_congr (congrArg State.nodes writes) k, fun k => valAt_congr (congrArg State.vals writes) k, writes,
        fun other => Instr.noConfusion other⟩
  · obtain rfl := Host.Outcome.next.inj ((exec_busy i s build).symm.trans answer)
    exact ⟨fun _ => rfl, fun _ => rfl, rfl, fun _ => rfl⟩

end Sys2Proof.Machine
end

section
/-! SUPPORT. Rows of MOVE commands on an idle block (R116, R118, R121): the error state, a block that holds no tree, and the depth that
bounds a code. -/

namespace Sys2Proof.Machine

/-- The first bit's RESULT, then those of the rest. -/
theorem afterMoves_cons {s : State} (idle : s.phase = .idle) (b : Bool) (r : List Bool) :
    afterMoves (b :: r) s = ((moveStep b s).result :: (afterMoves r (moveStep b s)).1, (afterMoves r (moveStep b s)).2) := by
  rw [afterMoves, exec_move_idle idle]

/-! ## The error state (R116) -/

/-- A refused MOVE changes nothing once RESULT says InvalidCode (R111). -/
theorem moveStep_sticky {s : State} (derr : s.derr = true) (result : s.result = invalidResult) (b : Bool) : moveStep b s = s := by
  rw [moveStep_refused derr, moveRefused, ← result]

/-- Settles O37: by induction on the bits, the state standing still. -/
theorem decodeErrorIsSticky : Obligations.DecodeErrorIsSticky := by
  intro bits s idle derr result
  induction bits with
  | nil => rfl
  | cons b r ih =>
    rw [afterMoves_cons idle, moveStep_sticky derr result, ih, result]
    rfl

/-! ## A block without a tree (R121) -/

/-- Without DERR, the cursor of a block that holds the bare root is on that root, which has no edge. -/
theorem Idle.edge_of_bareRoot {s : State} (h : Idle s) (derr : s.derr = false) (bare : s.nodes = [(0, rootClear)]) (b : Bool) :
    edge (here s) b = none := by
  obtain ⟨one, -⟩ := MemoryOk.keys_range' h.memory
  obtain ⟨allocated, -⟩ := h.cursor derr
  have root : s.cursor.toNat = 0 := by
    rw [← one, bare] at allocated
    exact Nat.lt_one_iff.1 allocated
  have clear : here s = rootClear := by
    rw [here, root, nodeAt, bare]
    rfl
  rw [clear]
  cases b <;> rfl

/-- Settles O36: a block that is not built holds the bare root (R121); there MOVE finds DERR set or no edge. -/
theorem moveWithoutATreeRaisesInvalidCode : Obligations.MoveWithoutATreeRaisesInvalidCode := by
  intro b s inv phase untreed
  have idle := Idle.of_inv inv phase
  obtain ⟨-, -, -, -, unbuilt⟩ := idle.flags
  have bare : s.nodes = [(0, rootClear)] := untreed.elim (fun built => (unbuilt phase built).1) id
  refine ⟨moveStep b s, exec_move_idle phase b, ?_⟩
  cases derr : s.derr with
  | true =>
    rw [moveStep_refused derr]
    exact ⟨derr, rfl, rfl⟩
  | false =>
    rw [moveStep_absent derr (idle.edge_of_bareRoot derr bare b)]
    exact ⟨rfl, rfl, rfl⟩

/-! ## At most sixteen bits (R118) -/

/-- No node is deeper than 16, so one that has a child is not deeper than 15 (R13(f)). -/
theorem CodeTree.depth_lt_of_inner {s : State} (tree : CodeTree s) {k d : Nat} (allocated : k < s.alloc.toNat)
    (depth : depthOf s k = some d) (inner : childless (nodeAt s k) = false) : d < 16 := by
  obtain ⟨b, x, down⟩ : ∃ b x, edge (nodeAt s k) b = some x := by
    obtain left | right := (childless_eq_false_iff _).1 inner
    · exact ⟨false, Option.ne_none_iff_exists'.1 left⟩
    · exact ⟨true, Option.ne_none_iff_exists'.1 right⟩
  obtain ⟨bound, -⟩ := climb_fuel (tree.depthOf_edge allocated depth down)
  omega

/-- Without DERR the decoder stands above the deepest level. -/
theorem Idle.cursor_depth_lt {s : State} (h : Idle s) (derr : s.derr = false) {d : Nat}
    (depth : depthOf s s.cursor.toNat = some d) : d < 16 := by
  obtain ⟨allocated, root | inner⟩ := h.cursor derr
  · have zero : depthOf s s.cursor.toNat = some 0 := by
      rw [root]
      exact depthOf_root h.tree.rootParent
    obtain rfl := Option.some.inj (zero.symm.trans depth)
    decide
  · exact h.tree.depth_lt_of_inner allocated depth inner

/-- From a cursor at depth `d`, a symbol or InvalidCode comes within `16 - d` bits: each bit that gives neither goes one level down. -/
theorem Idle.symbol_or_error {s : State} (h : Idle s) (derr : s.derr = false) {d : Nat}
    (depth : depthOf s s.cursor.toNat = some d) {bits : List Bool} (enough : 16 ≤ d + bits.length) :
    ∃ r ∈ (afterMoves bits s).1, r.sv = true ∨ r.err = true := by
  induction bits generalizing s d with
  | nil => exact absurd (h.cursor_depth_lt derr depth) (Nat.not_lt.2 enough)
  | cons b rest ih =>
    rw [afterMoves_cons h.phase]
    obtain ⟨-, move⟩ | ⟨-, -, move⟩ | ⟨-, k, down, ⟨-, move⟩ | ⟨-, move⟩⟩ := moveStep_cases b s
    · exact ⟨_, .head _, .inr (by rw [move]; rfl)⟩
    · exact ⟨_, .head _, .inr (by rw [move]; rfl)⟩
    · exact ⟨_, .head _, .inl (by rw [move]; rfl)⟩
    · have inv := h.moveStep b
      rw [move] at inv ⊢
      obtain ⟨allocated, -⟩ := h.cursor derr
      have links : SameLinks s (moveAdvance s k) := .of_nodes rfl rfl
      have deeper := (links.depthOf k.toNat).trans (h.tree.depthOf_edge allocated depth down)
      rw [List.length_cons] at enough
      obtain ⟨r, later, answered⟩ := ih (.of_inv inv h.phase) derr deeper (by omega)
      exact ⟨r, .tail _ later, answered⟩

/-- Settles O38: sixteen bits are enough from the cursor, at whatever depth it stands. -/
theorem sixteenBitsGiveASymbolOrAnError : Obligations.SixteenBitsGiveASymbolOrAnError := by
  intro bits s inv phase derr length
  have idle := Idle.of_inv inv phase
  obtain ⟨allocated, -⟩ := idle.cursor derr
  obtain ⟨d, depth⟩ := (idle.tree.linked _ allocated).depth
  exact idle.symbol_or_error derr depth (by rw [length]; exact Nat.le_add_left 16 d)

end Sys2Proof.Machine
end

section
/-! SUPPORT. The lost cursor (R113, U1): while DERR is set every event is answered alike wherever the cursor stands. -/

namespace Sys2Proof.Machine

/-- The block with its cursor elsewhere. -/
abbrev withCursor (s : State) (c : NodeIdx) : State := { s with cursor := c }

/-- Two blocks that may differ in the cursor, and in that only while DERR is set (U1). -/
def AlikeButLostCursor (t u : State) : Prop := u = withCursor t u.cursor ∧ (t.derr = false → u = t)

theorem AlikeButLostCursor.refl (t : State) : AlikeButLostCursor t t := ⟨rfl, fun _ => rfl⟩

theorem alike_withCursor {t : State} (derr : t.derr = true) (c : NodeIdx) : AlikeButLostCursor t (withCursor t c) :=
  ⟨rfl, fun clear => absurd (derr.symm.trans clear) (by decide)⟩

/-- No register shows the cursor (R41). -/
theorem readReg_withCursor (s : State) (c : NodeIdx) (r : Reg) : readReg (withCursor s c) r = readReg s r := by
  cases r <;> rfl

theorem hostWrite_idle {s : State} (idle : s.phase = .idle) (off : Nat) (v : Word) :
    hostWrite off v s = writeReg s (regAt off) v := by
  obtain ⟨build, -⟩ | ⟨-, write⟩ := hostWrite_cases off v s
  · exact absurd (idle.symm.trans build) (by decide)
  · exact write

section

variable {s t : State} (idle : s.phase = .idle) (derr : s.derr = true) (c : NodeIdx)
include idle derr

/-- BUILD and RESTART put the cursor at the root (R81, R117), MOVE does not read it (R111). -/
theorem exec_withCursor {i : Instr} (answer : exec i s = .next t) :
    ∃ u, exec i (withCursor s c) = .next u ∧ AlikeButLostCursor t u := by
  rw [exec_idle i s idle] at answer
  rw [exec_idle i (withCursor s c) idle]
  refine ⟨_, rfl, ?_⟩
  cases i <;> cases answer
  case build => exact .refl _
  case move b =>
    simp only [moveStep_refused derr, moveStep_refused (s := withCursor s c) derr]
    exact alike_withCursor (t := moveRefused s) derr c
  case restart => exact .refl _

/-- A write that carries no command neither reads the cursor nor clears DERR (R43). -/
theorem hostWrite_withCursor (off : Nat) (v : Word) :
    AlikeButLostCursor (hostWrite off v s) (hostWrite off v (withCursor s c)) := by
  have same : hostWrite off v (withCursor s c) = withCursor (hostWrite off v s) c := by
    rw [hostWrite_idle idle, hostWrite_idle (s := withCursor s c) idle]
    cases regAt off <;> rfl
  rw [same]
  exact alike_withCursor ((sameFlags_hostWrite off v s).derr.trans derr) c

end

/-- Settles O35: event by event; what keeps DERR does not read the cursor, what clears DERR writes it. -/
theorem lostCursorIsNeverObserved : Obligations.LostCursorIsNeverObserved := by
  intro s t c idle derr answer
  change ∃ u, step (withCursor s c) = .next u ∧ AlikeButLostCursor t u
  obtain ⟨next, rfl⟩ | ⟨ts, next, rfl⟩ | ⟨ts, next, rfl⟩ | ⟨off, ts, next, aligned, inside, rfl⟩ |
    ⟨off, v, ts, next, aligned, inside, write⟩ := step_cases answer
  · rw [engineTurn_idle s idle, (idleBlockStaysAsItIs (withCursor s c) idle).1 next]
    exact ⟨_, rfl, alike_withCursor derr c⟩
  · rw [engineTurn_idle { s with turns := ts } idle, (idleBlockStaysAsItIs (withCursor s c) idle).2 ts next]
    exact ⟨_, rfl, alike_withCursor (t := { s with turns := ts }) derr c⟩
  · refine ⟨blockReset { s with turns := ts }, ?_, .refl _⟩
    simp only [step, next]
    rfl
  · have legal : legalAccess off 4 = true := (legalAccess_iff off 4).2 ⟨rfl, aligned, inside⟩
    rw [step_read_legal (s := withCursor s c) legal next, readReg_withCursor]
    exact ⟨_, rfl, alike_withCursor (t := hostRead off { s with turns := ts }) derr c⟩
  · rw [step_write_legal (s := withCursor s c) next aligned inside]
    obtain ⟨i, command, run⟩ | ⟨noCommand, rfl⟩ := write
    · rw [writeAccess_of_command command]
      exact exec_withCursor (s := { s with turns := ts }) idle derr c run
    · rw [writeAccess, noCommand]
      exact ⟨_, rfl, hostWrite_withCursor (s := { s with turns := ts }) idle derr c off v⟩

end Sys2Proof.Machine
end

section
/-! SUPPORT. Errors (60_exceptions.md): the two causes of InvalidCode (R134), and the ways out of an error (R140). -/

namespace Sys2Proof.Machine

/-! ## InvalidCode (R134) -/

/-- RESULT and DERR after a MOVE say InvalidCode when DERR was set or there is no edge, and else neither does (R110, R134). -/
theorem moveStep_result_err_iff (b : Bool) (s : State) :
    (moveStep b s).result.err = true ↔ s.derr = true ∨ edge (here s) b = none := by
  obtain ⟨derr, move⟩ | ⟨derr, absent, move⟩ | ⟨derr, k, down, ⟨-, move⟩ | ⟨-, move⟩⟩ := moveStep_cases b s <;> rw [move]
  · exact iff_of_true rfl (.inl derr)
  · exact iff_of_true rfl (.inr absent)
  · exact iff_of_false Bool.false_ne_true (by simp [derr, down])
  · exact iff_of_false Bool.false_ne_true (by simp [derr, down])

/-- DERR is latched with RESULT.ERR, and RESULT then holds no symbol (R21, R113). -/
theorem moveStep_latches (b : Bool) (s : State) : (moveStep b s).derr = (moveStep b s).result.err ∧
    ((moveStep b s).result.err = true → (moveStep b s).result = invalidResult) := by
  obtain ⟨derr, move⟩ | ⟨derr, -, move⟩ | ⟨derr, k, -, ⟨-, move⟩ | ⟨-, move⟩⟩ := moveStep_cases b s <;> rw [move]
  · exact ⟨derr, fun _ => rfl⟩
  · exact ⟨rfl, fun _ => rfl⟩
  · exact ⟨derr, fun err => absurd err Bool.false_ne_true⟩
  · exact ⟨derr, fun err => absurd err Bool.false_ne_true⟩

/-- Settles O34: by the four cases of MOVE; `edge` is the choice between the two pointers. -/
theorem invalidCodeHasTwoCauses : Obligations.InvalidCodeHasTwoCauses := by
  intro b s idle
  obtain ⟨latched, invalid⟩ := moveStep_latches b s
  refine ⟨moveStep b s, exec_move_idle idle b, moveStep_result_err_iff b s, latched, fun err => ?_⟩
  rw [invalid err]
  exact ⟨rfl, rfl⟩

/-! ## Leaving the decode error (R140) -/

theorem step_reset {s : State} {ts : List Turn} (next : s.turns = .reset :: ts) :
    step s = .next (blockReset { s with turns := ts }) := by
  simp only [step, next]

/-- MOVE does not clear DERR (R116). -/
theorem moveStep_keeps_derr {s : State} (derr : s.derr = true) (b : Bool) : (moveStep b s).derr = true := by
  rw [moveStep_refused derr]
  exact derr

/-- Of the commands BUILD and RESTART clear DERR, and both put the cursor at the root (R81, R117). -/
theorem exec_clears_derr {s t : State} {i : Instr} (idle : s.phase = .idle) (answer : exec i s = .next t) (set : s.derr = true)
    (clear : t.derr = false) : (i = .build ∨ i = .restart) ∧ t.cursor = 0 := by
  obtain ⟨rfl, -, rfl⟩ | ⟨rfl, -, rfl⟩ | ⟨b, -, rfl⟩ | ⟨rfl, rfl⟩ := exec_cases idle answer
  · exact ⟨.inl rfl, rfl⟩
  · exact ⟨.inl rfl, rfl⟩
  · exact absurd ((moveStep_keeps_derr set b).symm.trans clear) (by decide)
  · exact ⟨.inr rfl, rfl⟩

theorem step_clears_derr {s t : State} (answer : step s = .next t) (set : s.derr = true) (clear : t.derr = false) :
    t.cursor = 0 ∧ ((∃ ts, s.turns = .reset :: ts) ∨ ∃ i, (i = .build ∨ i = .restart) ∧ Accepted s (encode i)) := by
  obtain same | ⟨⟨ts, next⟩, -⟩ | ⟨-, same⟩ | ⟨idle, i, ts, next, run⟩ := step_flags answer
  · exact absurd (set.symm.trans (same.derr.symm.trans clear)) (by decide)
  · obtain rfl := Host.Outcome.next.inj ((step_reset next).symm.trans answer)
    exact ⟨rfl, .inl ⟨ts, next⟩⟩
  · obtain ⟨-, -, -, -, derr, -⟩ := engineEffect_frame (engineChoice s) s
    exact absurd (set.symm.trans (derr.symm.trans (same.derr.symm.trans clear))) (by decide)
  · obtain ⟨command, root⟩ := exec_clears_derr (s := { s with turns := ts }) idle run set clear
    exact ⟨root, .inr ⟨i, command, idle, ts, next⟩⟩

/-! ## Leaving a build error or a built tree (R140) -/

/-- What the last build left in the flags still stands: a build error, though maybe another one, and BUILT. -/
structure OutcomeStands (s t : State) : Prop where
  berr : s.berr ≠ none → t.berr ≠ none
  built : s.built = true → t.built = true

theorem OutcomeStands.of_eq {s t : State} (berr : t.berr = s.berr) (built : t.built = s.built) : OutcomeStands s t :=
  ⟨fun set => berr ▸ set, built.trans⟩

/-- Of the commands only BUILD clears BERR or BUILT (R81). -/
theorem exec_outcome_stands {s t : State} {i : Instr} (idle : s.phase = .idle) (answer : exec i s = .next t) :
    i = .build ∨ OutcomeStands s t := by
  obtain ⟨build, -⟩ | ⟨build, -⟩ | ⟨b, -, rfl⟩ | ⟨-, rfl⟩ := exec_cases idle answer
  · exact .inl build
  · exact .inl build
  · obtain ⟨berr, built, -⟩ := moveStep_keeps b s
    exact .inr (.of_eq berr built)
  · exact .inr (.of_eq rfl rfl)

/-- The engine latches build errors and sets BUILT, but clears neither (R85, R95). -/
theorem engineEffect_outcome_stands (e : EngineStep) (s : State) : OutcomeStands s (engineEffect e s) := by
  obtain ⟨berr, built⟩ := engineEffect_flags e s
  constructor
  · intro set
    rw [berr]
    split
    · exact Option.some_ne_none _
    · exact Option.some_ne_none _
    · exact set
  · intro set
    rw [built, set, ite_self]

theorem step_outcome_stands {s t : State} (answer : step s = .next t) :
    (∃ ts, s.turns = .reset :: ts) ∨ Accepted s 0x00000010#32 ∨ OutcomeStands s t := by
  obtain same | ⟨resets, -⟩ | ⟨-, same⟩ | ⟨idle, i, ts, next, run⟩ := step_flags answer
  · exact .inr (.inr (.of_eq same.berr same.built))
  · exact .inl resets
  · obtain ⟨berr, built⟩ := engineEffect_outcome_stands (engineChoice s) s
    exact .inr (.inr ⟨fun set => same.berr ▸ berr set, fun set => same.built.trans (built set)⟩)
  · obtain rfl | ⟨berr, built⟩ := exec_outcome_stands (s := { s with turns := ts }) idle run
    · exact .inr (.inl ⟨idle, ts, next⟩)
    · exact .inr (.inr ⟨berr, built⟩)

/-- Settles O45, flag by flag: what clears DERR, what clears BERR or BUILT, what sets BUILT. -/
theorem whatClearsTheErrorFlags : Obligations.WhatClearsTheErrorFlags := by
  intro s t answer
  refine ⟨fun set clear => ?_, fun cleared => ?_, fun clear set => ?_⟩
  · obtain ⟨root, resets | ⟨i, rfl | rfl, idle, ts, next⟩⟩ := step_clears_derr answer set clear
    · exact ⟨root, .inl resets⟩
    · exact ⟨root, .inr ⟨idle, _, ts, next, .inl rfl⟩⟩
    · exact ⟨root, .inr ⟨idle, _, ts, next, .inr rfl⟩⟩
  · obtain resets | accepted | stands := step_outcome_stands answer
    · exact .inl resets
    · exact .inr accepted
    · obtain ⟨set, unset⟩ | ⟨set, unset⟩ := cleared
      · exact absurd unset (stands.berr set)
      · exact absurd ((stands.built set).symm.trans unset) (by decide)
  · obtain ⟨⟨build, -⟩, finish⟩ := step_sets_built answer clear set
    exact ⟨build, finish⟩

end Sys2Proof.Machine
end

section
/-! SUPPORT. Reset and hazards (70_reset_and_hazards.md): the reset input (R160), and a build over two VAL memories (U8, R164): the walk
goes the same way over both, and the two trees differ in the values of their nodes alone. -/

namespace Sys2Proof.Machine

/-! ## The reset input (R160) -/

/-- Settles O41: a reset event is `blockReset`, which keeps VAL and the later events. -/
theorem resetInputEffect : Obligations.ResetInputEffect := by
  intro s ts next
  obtain ⟨vals, turns, -, -⟩ := blockReset_kept { s with turns := ts }
  exact ⟨_, step_reset next, valAt_congr vals, rfl, turns⟩

/-! ## Two blocks that differ in values alone -/

/-- A node with its value set aside: all of it that the walk looks at (R84). -/
def shapeOf (n : Node) : Node := { n with value := 0 }

/-- Equal nodes but for their values, and equal registers and flags; VAL may hold anything (U8). -/
structure AlikeButValues (s u : State) : Prop where
  shape : ∀ k, shapeOf (nodeAt u k) = shapeOf (nodeAt s k)
  rest : u = { s with nodes := u.nodes, vals := u.vals }

namespace AlikeButValues

variable {s u : State} (h : AlikeButValues s u)
include h

/-- The second block is the first over another node memory and another VAL. -/
theorem memories : ∃ ns v, u = { s with nodes := ns, vals := v } := ⟨_, _, h.rest⟩

theorem phase : u.phase = s.phase := (congrArg State.phase h.rest :)

theorem cursor : u.cursor = s.cursor := (congrArg State.cursor h.rest :)

theorem shape_here : shapeOf (here u) = shapeOf (here s) := by
  rw [here, here, h.cursor]
  exact h.shape _

theorem left : (here u).left = (here s).left := (congrArg Node.left h.shape_here :)

theorem right : (here u).right = (here s).right := (congrArg Node.right h.shape_here :)

theorem parent : (here u).parent = (here s).parent := (congrArg Node.parent h.shape_here :)

/-! ### The dispatch table -/

/-- Tests 6 and 8 of R84 do not look at values. -/
theorem enterable_eq (k : NodeIdx) : enterable u k = enterable s k := by
  have used : (nodeAt u k.toNat).used = (nodeAt s k.toNat).used := (congrArg Node.used (h.shape k.toNat) :)
  have visited : (nodeAt u k.toNat).visited = (nodeAt s k.toNat).visited := (congrArg Node.visited (h.shape k.toNat) :)
  have pass : u.order = s.order := (congrArg State.order h.rest :)
  rw [enterable, enterable, used, visited, pass]

/-- The engine chooses the same step in both blocks: no test of R84 looks at a value. -/
theorem engineChoice_eq : engineChoice u = engineChoice s := by
  simp only [engineChoice, h.left, h.right, h.parent, h.enterable_eq]
  obtain ⟨ns, v, rfl⟩ := h.memories
  rfl

/-! ### The engine's steps -/

/-- Nodes of one shape are written at one index. -/
theorem setNode (c : Nat) {n m : Node} (same : shapeOf m = shapeOf n) : AlikeButValues (setNode s c n) (setNode u c m) := by
  constructor
  case shape =>
    intro k
    rw [nodeAt_of_setNode rfl, nodeAt_of_setNode rfl]
    split
    · exact same
    · exact h.shape k
  case rest =>
    obtain ⟨ns, v, rfl⟩ := h.memories
    rfl

theorem stepFinish : AlikeButValues (stepFinish s) (stepFinish u) := by
  have shape := h.shape
  obtain ⟨ns, v, rfl⟩ := h.memories
  exact ⟨shape, rfl⟩

theorem stepSkip : AlikeButValues (stepSkip s) (stepSkip u) := by
  have shape := h.shape
  obtain ⟨ns, v, rfl⟩ := h.memories
  exact ⟨shape, rfl⟩

/-- The one step that reads VAL: the two entries may differ, the nodes they are put in are of one shape (R87). -/
theorem stepPlace : AlikeButValues (stepPlace s) (stepPlace u) := by
  have placed : shapeOf { here u with value := valAt u u.vidx.toNat, used := true } =
      shapeOf { here s with value := valAt s s.vidx.toNat, used := true } :=
    congrArg (fun n : Node => { n with used := true }) h.shape_here
  have written := h.setNode s.cursor.toNat placed
  obtain ⟨ns, v, rfl⟩ := h.memories
  exact ⟨written.shape, rfl⟩

theorem newChild (b : Bool) : AlikeButValues (newChild s b) (newChild u b) := by
  have linked : shapeOf (withEdge (here u) b s.alloc) = shapeOf (withEdge (here s) b s.alloc) := by
    cases b
    · exact congrArg (fun n : Node => { n with left := some s.alloc }) h.shape_here
    · exact congrArg (fun n : Node => { n with right := some s.alloc }) h.shape_here
  have made := h.setNode s.alloc.toNat (rfl : shapeOf (fresh s.cursor) = _)
  have written := made.setNode s.cursor.toNat linked
  obtain ⟨ns, v, rfl⟩ := h.memories
  exact ⟨written.shape, rfl⟩

theorem descend (k : NodeIdx) : AlikeButValues (descend s k) (descend u k) := by
  have shape := h.shape
  obtain ⟨ns, v, rfl⟩ := h.memories
  exact ⟨shape, rfl⟩

theorem ascendTo (p : NodeIdx) : AlikeButValues (ascendTo s p) (ascendTo u p) := by
  have stamped : shapeOf { here u with visited := s.order } = shapeOf { here s with visited := s.order } :=
    congrArg (fun n : Node => { n with visited := s.order }) h.shape_here
  have written := h.setNode s.cursor.toNat stamped
  obtain ⟨ns, v, rfl⟩ := h.memories
  exact ⟨written.shape, rfl⟩

/-- A build error keeps the nodes or leaves the bare root (R138). -/
theorem raise_build (e : BuildError) : AlikeButValues (raise (.build e) s) (raise (.build e) u) := by
  have shape := h.shape
  obtain ⟨ns, v, rfl⟩ := h.memories
  cases e
  case tableTooLarge => exact ⟨shape, rfl⟩
  case tooFewValues => exact ⟨fun _ => rfl, rfl⟩
  case infeasible => exact ⟨fun _ => rfl, rfl⟩

/-- The step the tests of R84 lead to, taken by both blocks. -/
theorem engineEffect {e : EngineStep} (tests : TestsLeadTo s e) : AlikeButValues (engineEffect e s) (engineEffect e u) := by
  cases e
  case finish => exact h.stepFinish
  case skip => exact h.stepSkip
  case place => exact h.stepPlace
  case failTooFewValues => exact h.raise_build .tooFewValues
  case dlNew => exact h.newChild false
  case dlOld =>
    obtain ⟨-, l, left, -⟩ := tests
    rw [Machine.engineEffect, Machine.engineEffect, stepDlOld_of_left left, stepDlOld_of_left (h.left.trans left)]
    exact h.descend l
  case drNew => exact h.newChild true
  case drOld =>
    obtain ⟨-, l, r, -, -, right, -⟩ := tests
    rw [Machine.engineEffect, Machine.engineEffect, stepDrOld_of_right right, stepDrOld_of_right (h.right.trans right)]
    exact h.descend r
  case ascend =>
    obtain ⟨-, l, r, p, -, -, -, -, up⟩ := tests
    rw [Machine.engineEffect, Machine.engineEffect, stepAscend_of_parent up, stepAscend_of_parent (h.parent.trans up)]
    exact h.ascendTo p
  case failInfeasible => exact h.raise_build .infeasible

theorem engineTurn : AlikeButValues (engineTurn s) (engineTurn u) := by
  obtain idle | build := phase_cases s
  · rw [engineTurn_idle s idle, engineTurn_idle u (h.phase.trans idle)]
    exact h
  · rw [engineTurn_build s build, engineTurn_build u (h.phase.trans build), h.engineChoice_eq]
    exact h.engineEffect (testsLeadTo_engineChoice s)

theorem engineTurns (n : Nat) : AlikeButValues (engineTurns n s) (engineTurns n u) := by
  induction n generalizing s u with
  | zero => exact h
  | succ n ih => exact ih h.engineTurn

end AlikeButValues

/-! ## A BUILD over two VAL memories (U8, R164) -/

/-- BUILD start does not look at VAL (R81 to R83). -/
theorem alike_buildStart (s : State) (v : List Host.Cell) : AlikeButValues (buildStart s) (buildStart { s with vals := v }) := by
  have cleared : AlikeButValues (buildClear s) (buildClear { s with vals := v }) := ⟨fun _ => rfl, rfl⟩
  obtain ⟨large, start⟩ | ⟨fits, start⟩ := buildStart_cases s
  · rw [start, buildStart_large (s := { s with vals := v }) large]
    exact cleared.raise_build .tableTooLarge
  · rw [start, buildStart_fits (s := { s with vals := v }) fits]
    exact ⟨cleared.shape, rfl⟩

/-- Settles O52: the two blocks are alike but for values after BUILD start, and every engine turn keeps them so. -/
theorem valuesDoNotShapeTheTree : Obligations.ValuesDoNotShapeTheTree := by
  intro s v n k _
  have alike : AlikeButValues (afterBuild s n) (afterBuild { s with vals := v } n) := (alike_buildStart s v).engineTurns n
  have rest := alike.rest
  rw [afterBuild_vals] at rest
  exact ⟨(alike.shape k).symm, (congrArg (fun t : State => blockOf { t with nodes := [] }) rest).symm⟩

end Sys2Proof.Machine
end
